-- ==== Sys2Proof/Word.lean ====
section
/-! DEFINITION. The byte and offset words of SNCB and the three lane widths (R11, R28, R53 of spec/). -/

namespace Sys2Proof

/-- One byte: a command byte, a register opcode, a payload byte, a status byte (R11, R52). -/
abbrev Byte := BitVec 8

/-- A page offset, an unsigned 16-bit number (R53). -/
abbrev Offset := BitVec 16

/-- The lane width of a leg, one of {1, 2, 4} (R13, R28). -/
inductive Lanes
  | one
  | two
  | four
  deriving DecidableEq, Repr

/-- The number of parallel data lines a lane width stands for (R15). -/
def Lanes.count : Lanes → Nat
  | .one => 1
  | .two => 2
  | .four => 4

end Sys2Proof
end

