-- ==== Sys2Proof/Config.lean ====
section
/-! DEFINITION. What is fixed for an instance: the vendor variants, the identification table and the
configuration record Cfg (R8, R25, R34, R181), with the defaults of R8's table and the constants the
source fixes. -/

namespace Sys2Proof

/-- The Vendor Variant (R25). The 2-bit code 3 is never held, so it is no constructor. -/
inductive Variant
  | generic
  | variantA
  | variantB
  deriving DecidableEq, Repr

/-- The geometry columns of an identification table row (R181). They are opaque to every rule of SNCB:
nothing reads them. DESIGN CHOICE (log 27): natural numbers. -/
structure Geometry where
  pageSize    : Nat
  blockSize   : Nat
  capacity    : Nat
  spareSize   : Nat
  eccStrength : Nat
  eccStep     : Nat
  eccLayout   : List Nat
  deriving DecidableEq, Repr

/-- A row `(mfr, dev, variant, geom)` of ID_TABLE (R8, R181). -/
structure IdRow where
  mfr     : Byte
  dev     : Byte
  variant : Variant
  geom    : Geometry
  deriving DecidableEq, Repr

/-- The configuration record (R8): every field the spec marks "parameter". It is constant data, "fixed
before reset" (R222); State holds it because a step has no other argument (log 1). -/
structure Cfg where
  opcReset         : Byte
  opcGetFeature    : Byte
  opcSetFeature    : Byte
  opcWriteEnable   : Byte
  opcWriteDisable  : Byte
  opcReadId        : Byte
  opcProgramExec   : Byte
  opcPageRead      : Byte
  opcBlockErase    : Byte
  opcProgramLoad   : Byte
  opcProgramLoadX4 : Byte
  opcReadCache     : Byte
  opcReadCacheX2   : Byte
  opcReadCacheX4   : Byte
  /-- ADDR_IN_W, the width of the request's address port. -/
  addrInW          : Nat
  /-- LEN_W, the width of a payload length. -/
  lenW             : Nat
  /-- ECC_SHIFT, the lowest bit of the ECC status field. -/
  eccShift         : Nat
  /-- ECC_A_UNCORR, VariantA's sentinel. -/
  eccAUncorr       : BitVec 2
  /-- STATUS_REG: read by no rule (R31), it names the register callers read a status byte from. -/
  statusReg        : Byte
  /-- ID_TABLE. -/
  idTable          : List IdRow
  deriving DecidableEq, Repr

/-- The fourteen opcode parameters, in the order of R8's table. -/
def Cfg.opcodes (c : Cfg) : List Byte :=
  [c.opcReset, c.opcGetFeature, c.opcSetFeature, c.opcWriteEnable, c.opcWriteDisable, c.opcReadId,
   c.opcProgramExec, c.opcPageRead, c.opcBlockErase, c.opcProgramLoad, c.opcProgramLoadX4,
   c.opcReadCache, c.opcReadCacheX2, c.opcReadCacheX4]

/-- The defaults of R8's table. PRESUMED (log 2, 3, 6): the opcodes, the ECC shift, VariantA's sentinel and
the status register number are general knowledge by the spec's own mark. DESIGN CHOICE (log 4, 5): the
widths, and the empty ID_TABLE, for which the spec has no default. No rule depends on them. -/
def Cfg.default : Cfg where
  opcReset := 0xFF
  opcGetFeature := 0x0F
  opcSetFeature := 0x1F
  opcWriteEnable := 0x06
  opcWriteDisable := 0x04
  opcReadId := 0x9F
  opcProgramExec := 0x10
  opcPageRead := 0x13
  opcBlockErase := 0xD8
  opcProgramLoad := 0x02
  opcProgramLoadX4 := 0x32
  opcReadCache := 0x03
  opcReadCacheX2 := 0x3B
  opcReadCacheX4 := 0x6B
  addrInW := 32
  lenW := 16
  eccShift := 4
  eccAUncorr := 2
  statusReg := 0xC0
  idTable := []

namespace Config

/-- DUMMY_BYTE = 0x00 (R87; the spec's decision D3, log 7). -/
abbrev dummyByte : Byte := 0x00

/-- ADDR_W = 24, the width of a page address in a command (R8, R51). -/
abbrev addrW : Nat := 24

/-- CMD_MAX = 5, the longest command (R8, R83). -/
abbrev cmdMax : Nat := 5

/-- ECC_B_UNCORR = 7, VariantB's all-ones sentinel (R8, R172). -/
abbrev eccBUncorr : BitVec 3 := 7

end Config

end Sys2Proof
end

