-- ==== Sys2Proof/Machine/Interface.lean ====
section
/-! DEFINITION. The values that cross SNCB's interfaces or live for one operation: request, operation, Bus
Mode, descriptor, legs, the transport's answer, errors and responses (R13, R21, R22, R28, R30, R100, R190). -/

namespace Sys2Proof

/-- The Bus Mode, a capability set of four independent flags; any of the sixteen combinations may be
presented (R30). -/
structure BusMode where
  txDual : Bool
  txQuad : Bool
  rxDual : Bool
  rxQuad : Bool
  deriving DecidableEq, Repr

/-- The Bus Mode with no flag set: single-lane transfer in both directions (R30). -/
def BusMode.single : BusMode := ⟨false, false, false, false⟩

/-- The request record REQ, each field with the width R21 gives it. `addr` is the value on a port of
ADDR_IN_W bits and `len` one of LEN_W bits. -/
structure Req where
  op     : BitVec 4
  addr   : Nat
  reg    : Byte
  value  : Byte
  offset : Offset
  len    : Nat
  buf    : List Byte
  raw    : Byte
  deriving DecidableEq, Repr

/-- The thirteen operations with the operands each reads (R3, R100). -/
inductive Op
  | reset
  | readRegister (reg : Byte)
  | writeRegister (reg : Byte) (value : Byte)
  | writeEnable
  | writeDisable
  | writePage (addr : Nat)
  | loadPage (addr : Nat)
  | blockErase (addr : Nat)
  | storeCache (offset : Offset) (buf : List Byte)
  | readCache (offset : Offset) (len : Nat)
  | readId
  | decodeStatus (raw : Byte)
  | identify
  deriving DecidableEq, Repr

/-- The command bytes of a descriptor: 0 to CMD_MAX = 5 bytes, in sending order (R28). A longer sequence
cannot be written down (U7, log 26). -/
inductive CommandBytes
  | b0
  | b1 (c0 : Byte)
  | b2 (c0 c1 : Byte)
  | b3 (c0 c1 c2 : Byte)
  | b4 (c0 c1 c2 c3 : Byte)
  | b5 (c0 c1 c2 c3 c4 : Byte)
  deriving DecidableEq, Repr

/-- The command bytes as a sequence, element 0 the first byte put on the bus (R11, R56). -/
def CommandBytes.toList : CommandBytes → List Byte
  | .b0 => []
  | .b1 c0 => [c0]
  | .b2 c0 c1 => [c0, c1]
  | .b3 c0 c1 c2 => [c0, c1, c2]
  | .b4 c0 c1 c2 c3 => [c0, c1, c2, c3]
  | .b5 c0 c1 c2 c3 c4 => [c0, c1, c2, c3, c4]

/-- The Command Descriptor (R28). A payload that is present may have length 0, which is distinct from an
absent one (R29). -/
structure Descriptor where
  commandBytes : CommandBytes
  txPayload    : Option (List Byte)
  rxPayload    : Option Nat
  txBitWidth   : Lanes
  rxBitWidth   : Lanes
  deriving DecidableEq, Repr

/-- One direction of a bus transaction (R13): bytes to send, or a receive buffer of a length, each on a
number of lanes. -/
inductive Leg
  | tx (data : List Byte) (width : Lanes)
  | rx (len : Nat) (width : Lanes)
  deriving DecidableEq, Repr

/-- The transport's opaque error (R13, R193): SNCB carries it and never looks inside.
DESIGN CHOICE (log 10): a natural number as its only content. -/
structure TransportError where
  tag : Nat
  deriving DecidableEq, Repr

/-- What a receive leg finds on the bus: some bytes in arrival order, then an idle line that reads as one
byte for ever. The environment chooses both, so a buffer of any length can receive any bytes (R13, log 9). -/
structure RxStream where
  bytes : List Byte
  idle  : Byte
  deriving DecidableEq, Repr

/-- The transport's answer to one `Transmit` call (R13): an oracle answer that no rule decides (U16).
`never` is a call that does not return, outside the transport's contract (R67, U8). -/
inductive TransmitAnswer
  | ok (rx : RxStream)
  | err (e : TransportError)
  | never
  deriving DecidableEq, Repr

/-- The five error kinds with what each records (R190). -/
inductive ErrorKind
  /-- A descriptor with empty `command_bytes` (R191). -/
  | invalidCommand
  /-- A descriptor with both payloads present (R192). -/
  | conflictingDirection
  /-- `Transmit` answered `Err(e)`; `e` is carried unmodified (R193). -/
  | transportFailure (e : TransportError)
  /-- The ID matched no table row, or the instance is FAILED (R194). -/
  | unknownDevice
  /-- A page address of 2^24 or more, with that address (R196). -/
  | addressOutOfRange (addr : Nat)
  deriving DecidableEq, Repr

/-- The outcome of decoding a status byte. An uncorrectable outcome has no count (R174, U1). -/
inductive EccResult
  | corrected (count : BitVec 4)
  | uncorrectable
  deriving DecidableEq, Repr

/-- The response record RSP as a sum type with one case per kind of operation (R22). -/
inductive Response
  /-- Success of an operation without a receive leg. -/
  | done
  /-- Success of ReadRegister, ReadCache or ReadId, with the received bytes. -/
  | data (rxdata : List Byte)
  /-- Success of DecodeStatus. -/
  | ecc (result : EccResult)
  /-- Success of Identify: the variant, the row's index in ID_TABLE and the two ID bytes (R182). -/
  | identified (variant : Variant) (row : Nat) (rxdata : List Byte)
  /-- The operation met an error (R195). -/
  | error (e : ErrorKind)
  deriving DecidableEq, Repr

/-- A request as it is presented: the record, the Bus Mode sampled for it (R30) and the answer the
transport will give to its one possible `Transmit` call (R13, R60). -/
structure Presented where
  req    : Req
  mode   : BusMode
  answer : TransmitAnswer
  deriving DecidableEq, Repr

/-- What the outside world can do to an instance between two operations: present a request (R23), or
signal hardware reset (R220). -/
inductive Input
  | request (p : Presented)
  | hardwareReset
  deriving DecidableEq, Repr

end Sys2Proof
end

