-- ==== Sys2Proof/Machine/Operands.lean ====
section
/-! DEFINITION. Operand assembly: the byte slices of a page address and an offset, the six command layouts,
the ECC field, the ID length, the unused positions of a hardware command buffer (R32, R80, R84 to R87, R94,
R115, R130, R140, R170). -/

namespace Sys2Proof.Machine

/-- `v[lo+7 : lo]`, eight bits of an unsigned number (R11, R17). -/
def byteAt (v lo : Nat) : Byte := BitVec.ofNat 8 (v >>> lo)

/-- `PackAddr(a)` (R130): the three address bytes, most significant first, or AddressOutOfRange for an
address of 2^24 or more, which is never truncated. -/
def packAddr (a : Nat) : Except ErrorKind (Byte × Byte × Byte) :=
  if 2 ^ Config.addrW ≤ a then .error (.addressOutOfRange a)
  else .ok (byteAt a 16, byteAt a 8, byteAt a 0)

/-- The inverse of the address bytes, `a = a2 * 65536 + a1 * 256 + a0` (R84). -/
def unpackAddr (a2 a1 a0 : Byte) : Nat := a2.toNat * 65536 + a1.toNat * 256 + a0.toNat

/-- `PackOffset(o) = [o[15:8], o[7:0]]`, high byte first; it cannot fail (R140). -/
def packOffset (o : Offset) : Byte × Byte := (byteAt o.toNat 8, byteAt o.toNat 0)

/-- The inverse of the offset bytes, `o = oh * 256 + ol` (R85). -/
def unpackOffset (oh ol : Byte) : Offset := BitVec.ofNat 16 (oh.toNat * 256 + ol.toNat)

/-- Layout L1: the opcode alone (R80). -/
def layoutL1 (op : Byte) : CommandBytes := .b1 op

/-- Layout L2: opcode, register opcode (R80). -/
def layoutL2 (op reg : Byte) : CommandBytes := .b2 op reg

/-- Layout L3: opcode, offset high, offset low (R80). -/
def layoutL3 (op : Byte) (o : Offset) : CommandBytes := .b3 op (packOffset o).1 (packOffset o).2

/-- Layout L4A: opcode, three address bytes (R80). -/
def layoutL4A (op : Byte) (a : Byte × Byte × Byte) : CommandBytes := .b4 op a.1 a.2.1 a.2.2

/-- Layout L4R: opcode, dummy, offset high, offset low (R80, R87). -/
def layoutL4R (op : Byte) (o : Offset) : CommandBytes :=
  .b4 op Config.dummyByte (packOffset o).1 (packOffset o).2

/-- Layout L5R: opcode, dummy, offset high, offset low, dummy (R80, R87). -/
def layoutL5R (op : Byte) (o : Offset) : CommandBytes :=
  .b5 op Config.dummyByte (packOffset o).1 (packOffset o).2 Config.dummyByte

/-- `EccField(raw, w) = (raw >> ECC_SHIFT) & (2^w - 1)` (R170). -/
def eccField (c : Cfg) (raw : Byte) (w : Nat) : BitVec w := (raw >>> c.eccShift).setWidth w

/-- `ID_LEN(variant)`, which is 2 for every variant (R115). -/
def idLen : Variant → Nat
  | .generic => 2
  | .variantA => 2
  | .variantB => 2

/-- A hardware command buffer's five positions: those at index `len(command_bytes)` and above read 0x00,
whatever an earlier descriptor held (R32, R238). -/
def commandBuffer (d : Descriptor) : List Byte :=
  d.commandBytes.toList ++ List.replicate (Config.cmdMax - d.commandBytes.toList.length) 0x00

/-- The `n` bytes a receive buffer of length `n` is filled with, in arrival order (R13, R153). -/
def received (rx : RxStream) (n : Nat) : List Byte :=
  (rx.bytes ++ List.replicate (n - rx.bytes.length) rx.idle).take n

/-- A number read as `n` bytes, most significant first: the table's numbering of a command (R80). -/
def bytesOfWord : Nat → Nat → List Byte
  | 0, _ => []
  | n + 1, w => byteAt w (8 * n) :: bytesOfWord n w

/-- The 2-bit code of a variant (R25). -/
def variantCode : Variant → BitVec 2
  | .generic => 0
  | .variantA => 1
  | .variantB => 2

end Sys2Proof.Machine
end

