-- ==== Sys2Proof/Syntax.lean ====
section
/-! DEFINITION. The instructions of SNCB: one constructor per row of spec/opcode_table.json (R88, R100,
R173, R180). -/

namespace Sys2Proof

/-- One row of the operation table with the operands its operation reads from the request (R21, R100).
A row whose operation has several (StoreCache, ReadCache, DecodeStatus) names the form that the row's
condition selects: the Bus Mode in force, or VARIANT (R88, R89, R173). A page address and a payload length
are natural numbers because their port widths ADDR_IN_W and LEN_W are parameters (R8, R17); WellFormed
bounds them. -/
inductive Instr
  /-- `Reset` (R110). -/
  | reset
  /-- `ReadRegister(reg)` (R111). -/
  | readRegister (reg : Byte)
  /-- `WriteRegister(reg, value)` (R112). -/
  | writeRegister (reg : Byte) (value : Byte)
  /-- `WriteEnable` (R113). -/
  | writeEnable
  /-- `WriteDisable` (R114). -/
  | writeDisable
  /-- `ReadId` (R115). -/
  | readId
  /-- `WritePage(addr)` (R131). -/
  | writePage (addr : Nat)
  /-- `LoadPage(addr)` (R132). -/
  | loadPage (addr : Nat)
  /-- `BlockErase(addr)` (R133). -/
  | blockErase (addr : Nat)
  /-- `StoreCache(offset, buf)`, the row chosen when TX_QUAD is clear (R141). -/
  | storeCacheX1 (offset : Offset) (buf : List Byte)
  /-- `StoreCache(offset, buf)`, the row chosen when TX_QUAD is set (R141). -/
  | storeCacheX4 (offset : Offset) (buf : List Byte)
  /-- `ReadCache(offset, len)`, the row chosen when RX_QUAD and RX_DUAL are clear (R143). -/
  | readCacheX1 (offset : Offset) (len : Nat)
  /-- `ReadCache(offset, len)`, the row chosen when RX_QUAD is clear and RX_DUAL set (R143). -/
  | readCacheX2 (offset : Offset) (len : Nat)
  /-- `ReadCache(offset, len)`, the row chosen when RX_QUAD is set (R143). -/
  | readCacheX4 (offset : Offset) (len : Nat)
  /-- `DecodeStatus(raw)`, the row chosen when VARIANT is VariantA (R171, R173). -/
  | decodeStatusA (raw : Byte)
  /-- `DecodeStatus(raw)`, the row chosen when VARIANT is VariantB (R172, R173). -/
  | decodeStatusB (raw : Byte)
  /-- `Identify` (R180). -/
  | identify
  deriving DecidableEq, Repr

end Sys2Proof
end

