-- ==== Sys2Proof/WellFormed.lean ====
section
/-! DEFINITION. The checks a configuration, an operation and an instruction pass before the machine runs
them (R8, R9, R21, R54). -/

namespace Sys2Proof

/-- The constraints on a configuration (R8, R9): distinct opcodes, the ECC shift in 0..5, VariantA's
sentinel not 0, an address port of at least 24 bits. A configuration outside them is refused (U13, log 22). -/
def Cfg.wf (c : Cfg) : Bool :=
  decide (c.eccShift ≤ 5) && (decide (Config.addrW ≤ c.addrInW)
    && (decide (c.eccAUncorr ≠ 0) && decide c.opcodes.Nodup))

/-- A well-formed identification table has distinct keys and one variant per manufacturer (R181). An
ill-formed one is not refused: the lookup takes the lowest index (U12, log 22). -/
def idTableWf (t : List IdRow) : Bool :=
  decide (t.map fun r => (r.mfr, r.dev)).Nodup
    && t.all fun a => t.all fun b => !decide (a.mfr = b.mfr) || decide (a.variant = b.variant)

/-- The operands of an operation fit their ports: an address ADDR_IN_W bits, a payload length LEN_W bits
(R21, R51, R54). Every other operand has exactly its field's width (R117). -/
def Op.wf (c : Cfg) : Op → Bool
  | .reset | .readRegister _ | .writeRegister _ _ | .writeEnable | .writeDisable => true
  | .writePage a | .loadPage a | .blockErase a => decide (a < 2 ^ c.addrInW)
  | .storeCache _ buf => decide (buf.length < 2 ^ c.lenW)
  | .readCache _ len => decide (len < 2 ^ c.lenW)
  | .readId | .decodeStatus _ | .identify => true

/-- The same for an instruction. -/
def Instr.wf (c : Cfg) : Instr → Bool
  | .reset | .readRegister _ | .writeRegister _ _ | .writeEnable | .writeDisable | .readId => true
  | .writePage a | .loadPage a | .blockErase a => decide (a < 2 ^ c.addrInW)
  | .storeCacheX1 _ buf | .storeCacheX4 _ buf => decide (buf.length < 2 ^ c.lenW)
  | .readCacheX1 _ len | .readCacheX2 _ len | .readCacheX4 _ len => decide (len < 2 ^ c.lenW)
  | .decodeStatusA _ | .decodeStatusB _ | .identify => true

/-- The instruction has a command on the bus that carries every operand bit: a page address below 2^24
(R84). DecodeStatus has no command (R173). -/
def Instr.encodable : Instr → Bool
  | .writePage a | .loadPage a | .blockErase a => decide (a < 2 ^ Config.addrW)
  | .decodeStatusA _ | .decodeStatusB _ => false
  | .reset | .readRegister _ | .writeRegister _ _ | .writeEnable | .writeDisable | .readId
  | .storeCacheX1 _ _ | .storeCacheX4 _ _ | .readCacheX1 _ _ | .readCacheX2 _ _ | .readCacheX4 _ _
  | .identify => true

end Sys2Proof
end

