-- ==== Sys2Proof/Decode.lean ====
section
/-! DEFINITION. The two encodings of an operation. TOWARDS SNCB: the request record with its 4-bit selector
(R21, R100, R101), from which the Bus Mode and VARIANT select the table row (R88, R173). TOWARDS THE BUS:
the command descriptor (R80, R88) and its inverse (R90), which also reads a table word. -/

namespace Sys2Proof

/-! ## Requests -/

/-- Why a request record names no request (R21, R101; log 20, 21). -/
inductive ReqError
  /-- `OPSEL` 13, 14 or 15 (R101, U9). -/
  | reservedSelector (sel : BitVec 4)
  /-- An address or length wider than its port: no such record can be on the port (R21). -/
  | operandTooWide
  /-- A StoreCache record whose `buf` is not a sequence of `len` bytes (R21). -/
  | bufferLengthMismatch
  deriving DecidableEq, Repr

/-- The operation an `OPSEL` selects, with the operands it reads from the record and no others (R21, R100). -/
def opOfReq (r : Req) : Option Op :=
  match r.op.toNat with
  | 0 => some .reset
  | 1 => some (.readRegister r.reg)
  | 2 => some (.writeRegister r.reg r.value)
  | 3 => some .writeEnable
  | 4 => some .writeDisable
  | 5 => some (.writePage r.addr)
  | 6 => some (.loadPage r.addr)
  | 7 => some (.blockErase r.addr)
  | 8 => some (.storeCache r.offset r.buf)
  | 9 => some (.readCache r.offset r.len)
  | 10 => some .readId
  | 11 => some (.decodeStatus r.raw)
  | 12 => some .identify
  | _ => none

/-- Whether the record's `buf` is a sequence of `len` bytes, where the operation reads both (R21, R100). -/
def bufMatchesLen (op : Op) (r : Req) : Bool :=
  match op with
  | .storeCache _ buf => decide (buf.length = r.len)
  | .reset | .readRegister _ | .writeRegister _ _ | .writeEnable | .writeDisable | .writePage _
  | .loadPage _ | .blockErase _ | .readCache _ _ | .readId | .decodeStatus _ | .identify => true

/-- The operation a request record asks for, or why it asks for none. -/
def decodeReq (c : Cfg) (r : Req) : Except ReqError Op :=
  match opOfReq r with
  | none => .error (.reservedSelector r.op)
  | some op =>
    if op.wf c then
      if bufMatchesLen op r then .ok op else .error .bufferLengthMismatch
    else .error .operandTooWide

/-- A record with the given selector and every operand field zero or empty. -/
def Req.blank (sel : BitVec 4) : Req :=
  { op := sel, addr := 0, reg := 0, value := 0, offset := 0, len := 0, buf := [], raw := 0 }

/-- The request record of an operation; the fields the operation does not read are zero (R21, R100). -/
def encodeReq : Op → Req
  | .reset => .blank 0
  | .readRegister reg => { Req.blank 1 with reg := reg }
  | .writeRegister reg value => { Req.blank 2 with reg := reg, value := value }
  | .writeEnable => .blank 3
  | .writeDisable => .blank 4
  | .writePage a => { Req.blank 5 with addr := a }
  | .loadPage a => { Req.blank 6 with addr := a }
  | .blockErase a => { Req.blank 7 with addr := a }
  | .storeCache o buf => { Req.blank 8 with offset := o, buf := buf, len := buf.length }
  | .readCache o len => { Req.blank 9 with offset := o, len := len }
  | .readId => .blank 10
  | .decodeStatus raw => { Req.blank 11 with raw := raw }
  | .identify => .blank 12

/-! ## Rows -/

/-- The table row an operation runs as: the condition column of R88, and the policy VARIANT selects for
DecodeStatus (R173). No row's condition holds for DecodeStatus under Generic; its request goes to the
operation's first row, whose meaning is the whole of R173 and refuses it (R175). -/
def selectRow (op : Op) (mode : BusMode) (variant : Variant) : Instr :=
  match op with
  | .reset => .reset
  | .readRegister reg => .readRegister reg
  | .writeRegister reg value => .writeRegister reg value
  | .writeEnable => .writeEnable
  | .writeDisable => .writeDisable
  | .writePage a => .writePage a
  | .loadPage a => .loadPage a
  | .blockErase a => .blockErase a
  | .storeCache o buf => if mode.txQuad then .storeCacheX4 o buf else .storeCacheX1 o buf
  | .readCache o len =>
    if mode.rxQuad then .readCacheX4 o len
    else if mode.rxDual then .readCacheX2 o len
    else .readCacheX1 o len
  | .readId => .readId
  | .decodeStatus raw =>
    match variant with
    | .variantB => .decodeStatusB raw
    | .variantA => .decodeStatusA raw
    | .generic => .decodeStatusA raw
  | .identify => .identify

/-- The operation a row belongs to (the table's "operation" column). -/
def opOfRow : Instr → Op
  | .reset => .reset
  | .readRegister reg => .readRegister reg
  | .writeRegister reg value => .writeRegister reg value
  | .writeEnable => .writeEnable
  | .writeDisable => .writeDisable
  | .readId => .readId
  | .writePage a => .writePage a
  | .loadPage a => .loadPage a
  | .blockErase a => .blockErase a
  | .storeCacheX1 o buf => .storeCache o buf
  | .storeCacheX4 o buf => .storeCache o buf
  | .readCacheX1 o len => .readCache o len
  | .readCacheX2 o len => .readCache o len
  | .readCacheX4 o len => .readCache o len
  | .decodeStatusA raw => .decodeStatus raw
  | .decodeStatusB raw => .decodeStatus raw
  | .identify => .identify

/-- A Bus Mode under which the row is the one chosen (the table's "condition" column); single-lane where
the row's operation does not read the mode. -/
def modeOfRow : Instr → BusMode
  | .storeCacheX4 _ _ => { BusMode.single with txQuad := true }
  | .readCacheX2 _ _ => { BusMode.single with rxDual := true }
  | .readCacheX4 _ _ => { BusMode.single with rxQuad := true }
  | .reset | .readRegister _ | .writeRegister _ _ | .writeEnable | .writeDisable | .readId
  | .writePage _ | .loadPage _ | .blockErase _ | .storeCacheX1 _ _ | .readCacheX1 _ _
  | .decodeStatusA _ | .decodeStatusB _ | .identify => BusMode.single

/-! ## Commands: the inverse map (R90) -/

/-- Why a descriptor is no command SNCB emits (R90, R92). -/
inductive DecodeError
  /-- No command bytes. -/
  | empty
  /-- The first byte is none of the fourteen opcodes. -/
  | unknownOpcode (opcode : Byte)
  /-- The length is not that of the opcode's layout. -/
  | wrongLength (opcode : Byte)
  /-- A dummy position does not hold 0x00. -/
  | dummyNotZero
  /-- The data leg is not the one the row has. -/
  | dataLegMismatch
  deriving DecidableEq, Repr

/-- What follows the opcode in L1: nothing. -/
def operandsL1 (op : Byte) (i : Instr) : List Byte → Except DecodeError Instr
  | [] => .ok i
  | _ => .error (.wrongLength op)

/-- What follows the opcode in L2: a register opcode. -/
def operandsL2 (op : Byte) (f : Byte → Instr) : List Byte → Except DecodeError Instr
  | [reg] => .ok (f reg)
  | _ => .error (.wrongLength op)

/-- What follows the opcode in L3: an offset. -/
def operandsL3 (op : Byte) (f : Offset → Instr) : List Byte → Except DecodeError Instr
  | [oh, ol] => .ok (f (Machine.unpackOffset oh ol))
  | _ => .error (.wrongLength op)

/-- What follows the opcode in L4A: a page address. -/
def operandsL4A (op : Byte) (f : Nat → Instr) : List Byte → Except DecodeError Instr
  | [a2, a1, a0] => .ok (f (Machine.unpackAddr a2 a1 a0))
  | _ => .error (.wrongLength op)

/-- What follows the opcode in L4R: a dummy byte, an offset. -/
def operandsL4R (op : Byte) (f : Offset → Instr) : List Byte → Except DecodeError Instr
  | [dm, oh, ol] =>
    if dm = Config.dummyByte then .ok (f (Machine.unpackOffset oh ol)) else .error .dummyNotZero
  | _ => .error (.wrongLength op)

/-- What follows the opcode in L5R: a dummy byte, an offset, a dummy byte. -/
def operandsL5R (op : Byte) (f : Offset → Instr) : List Byte → Except DecodeError Instr
  | [dm, oh, ol, dm'] =>
    if dm = Config.dummyByte ∧ dm' = Config.dummyByte then .ok (f (Machine.unpackOffset oh ol))
    else .error .dummyNotZero
  | _ => .error (.wrongLength op)

/-- An entry of the inverse map: an opcode and the reader of what follows it (R88, R90). -/
structure CommandRow where
  opcode : Byte
  read   : List Byte → Except DecodeError Instr

/-- The fourteen opcodes with their layouts (R88). The operands that travel outside the command bytes (the
value byte, the buffer, the length) are zero or empty here; `withDataLeg` reads them. -/
def commandRows (c : Cfg) : List CommandRow :=
  [⟨c.opcReset, operandsL1 c.opcReset .reset⟩,
   ⟨c.opcGetFeature, operandsL2 c.opcGetFeature .readRegister⟩,
   ⟨c.opcSetFeature, operandsL2 c.opcSetFeature fun reg => .writeRegister reg 0⟩,
   ⟨c.opcWriteEnable, operandsL1 c.opcWriteEnable .writeEnable⟩,
   ⟨c.opcWriteDisable, operandsL1 c.opcWriteDisable .writeDisable⟩,
   ⟨c.opcReadId, operandsL1 c.opcReadId .readId⟩,
   ⟨c.opcProgramExec, operandsL4A c.opcProgramExec .writePage⟩,
   ⟨c.opcPageRead, operandsL4A c.opcPageRead .loadPage⟩,
   ⟨c.opcBlockErase, operandsL4A c.opcBlockErase .blockErase⟩,
   ⟨c.opcProgramLoad, operandsL3 c.opcProgramLoad fun o => .storeCacheX1 o []⟩,
   ⟨c.opcProgramLoadX4, operandsL3 c.opcProgramLoadX4 fun o => .storeCacheX4 o []⟩,
   ⟨c.opcReadCache, operandsL4R c.opcReadCache fun o => .readCacheX1 o 0⟩,
   ⟨c.opcReadCacheX2, operandsL5R c.opcReadCacheX2 fun o => .readCacheX2 o 0⟩,
   ⟨c.opcReadCacheX4, operandsL5R c.opcReadCacheX4 fun o => .readCacheX4 o 0⟩]

/-- The row and operands of a command's bytes (R90): the row is found by the first byte alone (R83). -/
def decodeCommand (c : Cfg) : List Byte → Except DecodeError Instr
  | [] => .error .empty
  | op :: rest =>
    match (commandRows c).find? fun r => decide (r.opcode = op) with
    | some r => r.read rest
    | none => .error (.unknownOpcode op)

/-- The data leg of a descriptor with at most one payload (R28, R29). -/
inductive DataLeg
  | none
  | tx (data : List Byte) (width : Lanes)
  | rx (len : Nat) (width : Lanes)
  deriving DecidableEq, Repr

/-- The data leg a descriptor asks for; `none` of the outer option when it asks for both directions. The
width of an absent direction is not read (R152). -/
def Descriptor.dataLeg? (d : Descriptor) : Option DataLeg :=
  match d.txPayload, d.rxPayload with
  | none, none => some .none
  | some data, none => some (.tx data d.txBitWidth)
  | none, some len => some (.rx len d.rxBitWidth)
  | some _, some _ => none

/-- No data leg, as the row requires. -/
def expectNoLeg (i : Instr) : Option DataLeg → Except DecodeError Instr
  | some .none => .ok i
  | _ => .error .dataLegMismatch

/-- A one-byte transmit leg on one lane. -/
def expectTxByte (f : Byte → Instr) : Option DataLeg → Except DecodeError Instr
  | some (.tx [v] .one) => .ok (f v)
  | _ => .error .dataLegMismatch

/-- A transmit leg of any length on the row's lanes. -/
def expectTx (w : Lanes) (f : List Byte → Instr) : Option DataLeg → Except DecodeError Instr
  | some (.tx data w') => if w' = w then .ok (f data) else .error .dataLegMismatch
  | _ => .error .dataLegMismatch

/-- A receive leg on the row's lanes. -/
def expectRx (w : Lanes) (f : Nat → Instr) : Option DataLeg → Except DecodeError Instr
  | some (.rx len w') => if w' = w then .ok (f len) else .error .dataLegMismatch
  | _ => .error .dataLegMismatch

/-- A receive leg of the row's fixed length on one lane. -/
def expectRxOf (n : Nat) (i : Instr) : Option DataLeg → Except DecodeError Instr
  | some (.rx len .one) => if len = n then .ok i else .error .dataLegMismatch
  | _ => .error .dataLegMismatch

/-- The row with the operands that the data leg carries; the leg must match the row (R90). -/
def withDataLeg (i : Instr) (leg : Option DataLeg) : Except DecodeError Instr :=
  match i with
  | .reset => expectNoLeg .reset leg
  | .readRegister reg => expectRxOf 1 (.readRegister reg) leg
  | .writeRegister reg _ => expectTxByte (.writeRegister reg) leg
  | .writeEnable => expectNoLeg .writeEnable leg
  | .writeDisable => expectNoLeg .writeDisable leg
  | .readId => expectRxOf 2 .readId leg
  | .writePage a => expectNoLeg (.writePage a) leg
  | .loadPage a => expectNoLeg (.loadPage a) leg
  | .blockErase a => expectNoLeg (.blockErase a) leg
  | .storeCacheX1 o _ => expectTx .one (.storeCacheX1 o) leg
  | .storeCacheX4 o _ => expectTx .four (.storeCacheX4 o) leg
  | .readCacheX1 o _ => expectRx .one (.readCacheX1 o) leg
  | .readCacheX2 o _ => expectRx .two (.readCacheX2 o) leg
  | .readCacheX4 o _ => expectRx .four (.readCacheX4 o) leg
  | .decodeStatusA _ | .decodeStatusB _ | .identify => .error .dataLegMismatch

/-- The inverse map of R90: the row whose command a descriptor is. ReadId and Identify emit the same
command; it reads back as ReadId (log 17). -/
def decode (c : Cfg) (d : Descriptor) : Except DecodeError Instr :=
  match decodeCommand c d.commandBytes.toList with
  | .error e => .error e
  | .ok i => withDataLeg i d.dataLeg?

/-! ## Commands: the map (R80, R88) -/

/-- A descriptor from its command bytes and data leg; the width of an absent leg is 1 (R29). -/
def Descriptor.ofRow (cb : CommandBytes) : DataLeg → Descriptor
  | .none => ⟨cb, none, none, .one, .one⟩
  | .tx data w => ⟨cb, some data, none, w, .one⟩
  | .rx len w => ⟨cb, none, some len, .one, w⟩

/-- A page-address row's descriptor; there is none for an address of 2^24 or more (R84, R130). -/
def Descriptor.ofPageRow (opcode : Byte) (a : Nat) : Option Descriptor :=
  match Machine.packAddr a with
  | .ok bytes => some (.ofRow (Machine.layoutL4A opcode bytes) .none)
  | .error _ => none

/-- The descriptor of a row, from the columns of R88: opcode, layout, data leg. DecodeStatus has none. -/
def encode (c : Cfg) : Instr → Option Descriptor
  | .reset => some (.ofRow (Machine.layoutL1 c.opcReset) .none)
  | .readRegister reg => some (.ofRow (Machine.layoutL2 c.opcGetFeature reg) (.rx 1 .one))
  | .writeRegister reg value => some (.ofRow (Machine.layoutL2 c.opcSetFeature reg) (.tx [value] .one))
  | .writeEnable => some (.ofRow (Machine.layoutL1 c.opcWriteEnable) .none)
  | .writeDisable => some (.ofRow (Machine.layoutL1 c.opcWriteDisable) .none)
  | .readId => some (.ofRow (Machine.layoutL1 c.opcReadId) (.rx 2 .one))
  | .writePage a => Descriptor.ofPageRow c.opcProgramExec a
  | .loadPage a => Descriptor.ofPageRow c.opcPageRead a
  | .blockErase a => Descriptor.ofPageRow c.opcBlockErase a
  | .storeCacheX1 o buf => some (.ofRow (Machine.layoutL3 c.opcProgramLoad o) (.tx buf .one))
  | .storeCacheX4 o buf => some (.ofRow (Machine.layoutL3 c.opcProgramLoadX4 o) (.tx buf .four))
  | .readCacheX1 o len => some (.ofRow (Machine.layoutL4R c.opcReadCache o) (.rx len .one))
  | .readCacheX2 o len => some (.ofRow (Machine.layoutL5R c.opcReadCacheX2 o) (.rx len .two))
  | .readCacheX4 o len => some (.ofRow (Machine.layoutL5R c.opcReadCacheX4 o) (.rx len .four))
  | .decodeStatusA _ => none
  | .decodeStatusB _ => none
  | .identify => some (.ofRow (Machine.layoutL1 c.opcReadId) (.rx 2 .one))

/-- The number of bytes in a row's layout, what R83 says a decoder tells from the opcode alone; 0 for a row
that has no command. -/
def layoutLength : Instr → Nat
  | .reset | .writeEnable | .writeDisable | .readId | .identify => 1
  | .readRegister _ | .writeRegister _ _ => 2
  | .storeCacheX1 _ _ | .storeCacheX4 _ _ => 3
  | .writePage _ | .loadPage _ | .blockErase _ | .readCacheX1 _ _ => 4
  | .readCacheX2 _ _ | .readCacheX4 _ _ => 5
  | .decodeStatusA _ | .decodeStatusB _ => 0

/-- The instruction whose command is the word `w` of `nbits` bits, numbered as the operation table numbers
it: the bytes of the command read as one big-endian bit string (R80), at the default opcodes. A number of
bits that is not whole bytes, or a word with a bit above them, is no command. -/
def decodeTableWord (nbits w : Nat) : Option Instr :=
  if nbits % 8 = 0 ∧ w < 2 ^ nbits then
    match decodeCommand Cfg.default (Machine.bytesOfWord (nbits / 8) w) with
    | .ok i => some i
    | .error _ => none
  else none

end Sys2Proof
end

