-- ==== Sys2Proof/Machine/State.lean ====
section
/-! DEFINITION. The state of one device instance, what it holds after reset, and the named ways a step can
stop (R20, R25, R26, R35, R222). -/

namespace Sys2Proof.Machine

/-- The lifecycle of the instance (R26). The 2-bit code 3 is never held, so it is no constructor. -/
inductive Life
  | unattached
  | attached
  | failed
  deriving DecidableEq, Repr

/-- One device instance, with what stands around it for the operation at hand.

`life` and `variant` are the two state elements SNCB has (R25, R26). `cfg` is constant data (R34; log 1).
`mode` and `answer` are the inputs of the operation at hand: the Bus Mode sampled for it (R30; log 8) and
the transport's answer to its `Transmit` call (R13; log 9). `rsp` is the response of the last operation, none
before there is one (R22, R222; log 15). `pending` and `busLog` are the model's own: what the outside will do
next, oldest first (log 12), and the `Transmit` calls made so far, oldest first, which no rule reads
(log 14). -/
structure State where
  cfg     : Cfg
  life    : Life
  variant : Variant
  mode    : BusMode
  answer  : TransmitAnswer
  rsp     : Option Response
  pending : List Input
  busLog  : List (List Leg)
  deriving DecidableEq, Repr

/-- What stops the machine with a fault. -/
inductive Fault
  /-- Raised by an operation whose `Transmit` call does not return (R67): the spec says stuck (U8). The
  call is outside the transport's contract. Safe: the model says nothing further. -/
  | transmitNeverReturns
  deriving DecidableEq, Repr

/-- What the model gives no meaning. -/
inductive Refusal
  /-- An arm of exec whose instruction has no meaning yet; no arm is left so. Safe. -/
  | notModelled (mnemonic : String)
  /-- Raised by DecodeStatus while VARIANT is Generic: there is no policy for it and the spec says the
  model refuses (R173, R175, U2; log 18). Safe. -/
  | noPolicyForGeneric
  /-- Raised by Identify while LIFE is ATTACHED: the response is undefined and the spec says the model
  refuses (R185, U3; log 19). Safe. -/
  | identifyWhenAttached
  /-- Raised by the fetch of a request record that names no request (R101, U9; log 20, 21). Safe. -/
  | noSuchRequest (why : ReqError)
  /-- Raised by the fetch under a configuration outside its constraints (R8, R9, U13; log 22). Safe. -/
  | badConfiguration
  deriving DecidableEq, Repr

/-- The outcome of one operation or one step. -/
abbrev Result := Host.Outcome State Fault Refusal

/-- The instance right after hardware reset (R35, R220, R222): UNATTACHED and Generic. The rest has no value
in the spec and holds what the log names: the default configuration (log 1 to 6), a clear Bus Mode (log 8), an
idle transport (log 9), no response, nothing pending, nothing sent (log 12, 14, 15). -/
def State.reset : State where
  cfg := Cfg.default
  life := .unattached
  variant := .generic
  mode := BusMode.single
  answer := .ok ⟨[], 0⟩
  rsp := none
  pending := []
  busLog := []

end Sys2Proof.Machine
end

