-- ==== Sys2Proof/Machine/Flags.lean ====
section
/-! DEFINITION. The numbers and result bits of a response: error codes, the error bit, the uncorrectable
bit, the fields of RSP (R22, R24, R26, R190). SNCB stores no flag (R24). -/

namespace Sys2Proof.Machine

/-- The code of an error kind in `RSP.err` (R190). -/
def errorCode : ErrorKind → Nat
  | .invalidCommand => 1
  | .conflictingDirection => 2
  | .transportFailure _ => 3
  | .unknownDevice => 4
  | .addressOutOfRange _ => 5

/-- `RSP.err`: 0 means success (R22, R190). -/
def rspErr : Response → Nat
  | .done | .data _ | .ecc _ | .identified _ _ _ => 0
  | .error e => errorCode e

/-- The result bit `RSP.err != 0` (R24). -/
def rspFailed (r : Response) : Bool := rspErr r != 0

/-- `RSP.uncorrectable`, which only DecodeStatus produces (R22, R24). -/
def rspUncorrectable : Response → Option Bool
  | .ecc .uncorrectable => some true
  | .ecc (.corrected _) => some false
  | .done | .data _ | .identified _ _ _ | .error _ => none

/-- `RSP.corrected`: none when the result is uncorrectable (R174) or the operation produces no count. -/
def rspCorrected : Response → Option (BitVec 4)
  | .ecc (.corrected n) => some n
  | .ecc .uncorrectable | .done | .data _ | .identified _ _ _ | .error _ => none

/-- `RSP.rxdata`, meaningful only for an operation with a receive leg that succeeded (R22). -/
def rspRxdata : Response → Option (List Byte)
  | .data bytes => some bytes
  | .identified _ _ bytes => some bytes
  | .done | .ecc _ | .error _ => none

/-- `RSP.variant` and `RSP.row`, which only a successful Identify produces (R22, R182). -/
def rspIdentified : Response → Option (Variant × Nat)
  | .identified v k _ => some (v, k)
  | .done | .data _ | .ecc _ | .error _ => none

/-- The 2-bit code of LIFE (R26). -/
def lifeCode : Life → BitVec 2
  | .unattached => 0
  | .attached => 1
  | .failed => 2

end Sys2Proof.Machine
end

