-- ==== Sys2Proof/Machine/Ops.lean ====
section
/-! DEFINITION. The shared operations: the named changes of State, error entry, the lifecycle gate, the
transport call and the Transport Dispatcher (R150 to R157, R195, R220). -/

namespace Sys2Proof.Machine

/-! ## Named changes of State -/

/-- The response of the operation at hand. -/
def respond (r : Response) (s : State) : State := { s with rsp := some r }

/-- One more `Transmit` call on the bus, with all its legs (R154). -/
def logCall (legs : List Leg) (s : State) : State := { s with busLog := s.busLog ++ [legs] }

/-- `VARIANT <- v; LIFE <- ATTACHED`, both in one step (R182). -/
def attach (v : Variant) (s : State) : State := { s with variant := v, life := .attached }

/-- `LIFE <- FAILED`; VARIANT stays as it is (R183). -/
def markFailed (s : State) : State := { s with life := .failed }

/-- A request taken from the head of the inputs: its Bus Mode and the transport's answer are the ones in
force for its operation, and no response of an earlier operation is left (R20, R30). -/
def accept (p : Presented) (rest : List Input) (s : State) : State :=
  { s with pending := rest, mode := p.mode, answer := p.answer, rsp := none }

/-- Hardware reset (R220): LIFE and VARIANT take their reset values and no error is remembered.
`cfg` is constant (R222); what has been on the bus and what the outside will do next are not SNCB's. -/
def hardwareReset (s : State) : State :=
  { s with life := .unattached, variant := .generic, rsp := none }

/-! ## Delivery -/

/-- The operation succeeds with a response. -/
def deliver (r : Response) (s : State) : Result := .next (respond r s)

/-- Error entry, `raise E(info)` (R195): the operation ends with the error as its response, and no state
element changes. Nothing is saved and no handler is entered; there is no return (R199). -/
def raise (e : ErrorKind) (s : State) : Result := .next (respond (.error e) s)

/-- The lifecycle gate (R157): in FAILED every request is answered UnknownDevice, before any other check. -/
def gate (s : State) (operation : Result) : Result :=
  if s.life = .failed then raise .unknownDevice s else operation

/-! ## The transport and the dispatcher -/

/-- How a call that may reach the transport ends: with bytes received, with an error, or stuck. -/
inductive Attempt
  | ok (rx : List Byte) (s : State)
  | raised (e : ErrorKind) (s : State)
  | stuck
  deriving DecidableEq, Repr

/-- The number of bytes the receive leg of a call asks for (R13). -/
def rxLength : List Leg → Nat
  | [] => 0
  | .tx _ _ :: legs => rxLength legs
  | .rx n _ :: legs => n + rxLength legs

/-- `Transmit(legs)` (R13, R153): the call goes on the bus and the environment's answer decides. `Ok` gives
exactly as many bytes as the receive leg asks for, `Err(e)` is TransportFailure carrying `e` verbatim. -/
def transmit (legs : List Leg) (s : State) : Attempt :=
  match s.answer with
  | .ok rx => .ok (received rx (rxLength legs)) (logCall legs s)
  | .err e => .raised (.transportFailure e) (logCall legs s)
  | .never => .stuck

/-- The transmit data leg, if there is one (R152). -/
def txLeg (d : Descriptor) : List Leg :=
  match d.txPayload with
  | some data => [.tx data d.txBitWidth]
  | none => []

/-- The receive leg, if there is one (R152). -/
def rxLeg (d : Descriptor) : List Leg :=
  match d.rxPayload with
  | some n => [.rx n d.rxBitWidth]
  | none => []

/-- `Legs(desc)` (R152): the command leg first, always a transmit leg on 1 lane, then the data leg. -/
def legs (d : Descriptor) : List Leg :=
  [.tx d.commandBytes.toList .one] ++ txLeg d ++ rxLeg d

/-- `Dispatch(desc)` (R150, R151), over any descriptor: the empty check, the direction check, then one
`Transmit` call with all legs. -/
def dispatch (d : Descriptor) (s : State) : Attempt :=
  if d.commandBytes.toList = [] then .raised .invalidCommand s
  else if d.txPayload.isSome ∧ d.rxPayload.isSome then .raised .conflictingDirection s
  else transmit (legs d) s

/-- What an operation does with the end of its dispatch: an error ends it (R195). -/
def Attempt.finish (a : Attempt) (k : List Byte → State → Result) : Result :=
  match a with
  | .ok rx s => k rx s
  | .raised e s => raise e s
  | .stuck => .fault .transmitNeverReturns

/-- `Exec(op, params)` for a builder operation (R155): the gate, `Build`, `Dispatch`, then the response that
the received bytes make. -/
def execBuilt (built : Except ErrorKind Descriptor) (response : List Byte → Response) (s : State) : Result :=
  gate s
    (match built with
     | .error e => raise e s
     | .ok d => (dispatch d s).finish fun rx s' => deliver (response rx) s')

/-- The response of an operation without a receive leg. -/
def noData (_ : List Byte) : Response := .done

end Sys2Proof.Machine
end

