-- ==== Sys2Proof/Machine/BuilderAddress.lean ====
section
/-! DEFINITION. Command Builder, page-address operations: WritePage, LoadPage, BlockErase
(41_builder_address.md). -/

namespace Sys2Proof.Machine

/-- The descriptor the three operations share but for the opcode: layout L4A, no data leg (R131 to R133). -/
def buildPageCommand (opcode : Byte) (addr : Nat) : Except ErrorKind Descriptor :=
  match packAddr addr with
  | .error e => .error e
  | .ok bytes =>
    .ok { commandBytes := layoutL4A opcode bytes, txPayload := none, rxPayload := none,
          txBitWidth := .one, rxBitWidth := .one }

/-- `Build(WritePage, addr)` (R131). -/
def buildWritePage (c : Cfg) (addr : Nat) : Except ErrorKind Descriptor :=
  buildPageCommand c.opcProgramExec addr

/-- `Build(LoadPage, addr)` (R132). -/
def buildLoadPage (c : Cfg) (addr : Nat) : Except ErrorKind Descriptor :=
  buildPageCommand c.opcPageRead addr

/-- `Build(BlockErase, addr)` (R133): the address is packed as given, with no rounding to a block. -/
def buildBlockErase (c : Cfg) (addr : Nat) : Except ErrorKind Descriptor :=
  buildPageCommand c.opcBlockErase addr

/-- WritePage (R131). -/
def execWritePage (addr : Nat) (s : State) : Result := execBuilt (buildWritePage s.cfg addr) noData s

/-- LoadPage (R132). -/
def execLoadPage (addr : Nat) (s : State) : Result := execBuilt (buildLoadPage s.cfg addr) noData s

/-- BlockErase (R133). -/
def execBlockErase (addr : Nat) (s : State) : Result := execBuilt (buildBlockErase s.cfg addr) noData s

end Sys2Proof.Machine
end

