-- ==== Sys2Proof/Machine/BuilderCache.lean ====
section
/-! DEFINITION. Command Builder, cache operations: StoreCache and ReadCache, the dummy bytes and the lane
selection (42_builder_cache.md). They are the only operations that read the Bus Mode (R89, R144); a row of
the table names which of its operation's forms that mode selects, so every row of an operation has the whole
of its operation as meaning (log 16). -/

namespace Sys2Proof.Machine

/-- `Build(StoreCache, offset, buf, mode)` (R141). -/
def buildStoreCache (c : Cfg) (offset : Offset) (buf : List Byte) (mode : BusMode) : Descriptor :=
  { commandBytes := layoutL3 (if mode.txQuad then c.opcProgramLoadX4 else c.opcProgramLoad) offset,
    txPayload := some buf, rxPayload := none,
    txBitWidth := if mode.txQuad then .four else .one, rxBitWidth := .one }

/-- The command bytes of ReadCache, by the stated priority: quad, then dual, then plain (R143). -/
def readCacheBytes (c : Cfg) (offset : Offset) (mode : BusMode) : CommandBytes :=
  if mode.rxQuad then layoutL5R c.opcReadCacheX4 offset
  else if mode.rxDual then layoutL5R c.opcReadCacheX2 offset
  else layoutL4R c.opcReadCache offset

/-- The receive width of ReadCache, by the same priority (R143). -/
def readCacheWidth (mode : BusMode) : Lanes :=
  if mode.rxQuad then .four else if mode.rxDual then .two else .one

/-- `Build(ReadCache, offset, len, mode)` (R143). -/
def buildReadCache (c : Cfg) (offset : Offset) (len : Nat) (mode : BusMode) : Descriptor :=
  { commandBytes := readCacheBytes c offset mode, txPayload := none, rxPayload := some len,
    txBitWidth := .one, rxBitWidth := readCacheWidth mode }

/-- `Exec(StoreCache)` under the Bus Mode in force (R141, R155). -/
def storeCache (offset : Offset) (buf : List Byte) (s : State) : Result :=
  execBuilt (.ok (buildStoreCache s.cfg offset buf s.mode)) noData s

/-- `Exec(ReadCache)` under the Bus Mode in force (R143, R155). -/
def readCache (offset : Offset) (len : Nat) (s : State) : Result :=
  execBuilt (.ok (buildReadCache s.cfg offset len s.mode)) .data s

/-- StoreCache.x1 (R141). -/
def execStoreCacheX1 (offset : Offset) (buf : List Byte) (s : State) : Result := storeCache offset buf s

/-- StoreCache.x4 (R141). -/
def execStoreCacheX4 (offset : Offset) (buf : List Byte) (s : State) : Result := storeCache offset buf s

/-- ReadCache.x1 (R143). -/
def execReadCacheX1 (offset : Offset) (len : Nat) (s : State) : Result := readCache offset len s

/-- ReadCache.x2 (R143). -/
def execReadCacheX2 (offset : Offset) (len : Nat) (s : State) : Result := readCache offset len s

/-- ReadCache.x4 (R143). -/
def execReadCacheX4 (offset : Offset) (len : Nat) (s : State) : Result := readCache offset len s

end Sys2Proof.Machine
end

