-- ==== Sys2Proof/Machine/BuilderSimple.lean ====
section
/-! DEFINITION. Command Builder, operations without an address or offset: Reset, ReadRegister,
WriteRegister, WriteEnable, WriteDisable, ReadId (40_builder_simple.md). None reads the Bus Mode (R118). -/

namespace Sys2Proof.Machine

/-- `Build(Reset)` (R110). -/
def buildReset (c : Cfg) : Descriptor :=
  { commandBytes := layoutL1 c.opcReset, txPayload := none, rxPayload := none,
    txBitWidth := .one, rxBitWidth := .one }

/-- `Build(ReadRegister, reg)` (R111). -/
def buildReadRegister (c : Cfg) (reg : Byte) : Descriptor :=
  { commandBytes := layoutL2 c.opcGetFeature reg, txPayload := none, rxPayload := some 1,
    txBitWidth := .one, rxBitWidth := .one }

/-- `Build(WriteRegister, reg, value)` (R112): the value is the payload, not a command byte. -/
def buildWriteRegister (c : Cfg) (reg value : Byte) : Descriptor :=
  { commandBytes := layoutL2 c.opcSetFeature reg, txPayload := some [value], rxPayload := none,
    txBitWidth := .one, rxBitWidth := .one }

/-- `Build(WriteEnable)` (R113). -/
def buildWriteEnable (c : Cfg) : Descriptor :=
  { commandBytes := layoutL1 c.opcWriteEnable, txPayload := none, rxPayload := none,
    txBitWidth := .one, rxBitWidth := .one }

/-- `Build(WriteDisable)` (R114). -/
def buildWriteDisable (c : Cfg) : Descriptor :=
  { commandBytes := layoutL1 c.opcWriteDisable, txPayload := none, rxPayload := none,
    txBitWidth := .one, rxBitWidth := .one }

/-- `Build(ReadId, variant)` (R115). -/
def buildReadId (c : Cfg) (v : Variant) : Descriptor :=
  { commandBytes := layoutL1 c.opcReadId, txPayload := none, rxPayload := some (idLen v),
    txBitWidth := .one, rxBitWidth := .one }

/-- Reset (R110): the flash device's reset command; it leaves LIFE and VARIANT as they are (R221). -/
def execReset (s : State) : Result := execBuilt (.ok (buildReset s.cfg)) noData s

/-- ReadRegister (R111): `rxdata` is the one byte received, unchanged. -/
def execReadRegister (reg : Byte) (s : State) : Result :=
  execBuilt (.ok (buildReadRegister s.cfg reg)) .data s

/-- WriteRegister (R112). -/
def execWriteRegister (reg value : Byte) (s : State) : Result :=
  execBuilt (.ok (buildWriteRegister s.cfg reg value)) noData s

/-- WriteEnable (R113): SNCB keeps no copy of the device's write-enable condition. -/
def execWriteEnable (s : State) : Result := execBuilt (.ok (buildWriteEnable s.cfg)) noData s

/-- WriteDisable (R114). -/
def execWriteDisable (s : State) : Result := execBuilt (.ok (buildWriteDisable s.cfg)) noData s

/-- ReadId (R115): the variant is the VARIANT state element; the bytes are not looked up. -/
def execReadId (s : State) : Result := execBuilt (.ok (buildReadId s.cfg s.variant)) .data s

end Sys2Proof.Machine
end

