-- ==== Sys2Proof/Machine/EccDecoder.lean ====
section
/-! DEFINITION. The Vendor ECC Decoder: the two policies and DecodeStatus (44_vendor_ecc_decoder.md). -/

namespace Sys2Proof.Machine

/-- VariantA's policy (R171): the sentinel is uncorrectable, any other field value is the count itself. -/
def eccDecodeA (c : Cfg) (raw : Byte) : EccResult :=
  if eccField c raw 2 = c.eccAUncorr then .uncorrectable
  else .corrected ((eccField c raw 2).setWidth 4)

/-- VariantB's policy (R172): 7 is uncorrectable, 0 and 1 count 0, every other value counts itself plus 2. -/
def eccDecodeB (c : Cfg) (raw : Byte) : EccResult :=
  if eccField c raw 3 = Config.eccBUncorr then .uncorrectable
  else if eccField c raw 3 ≤ 1 then .corrected 0
  else .corrected ((eccField c raw 3).setWidth 4 + 2)

/-- `EccDecode(variant, raw)` (R170 to R176), a pure function; none for Generic, which has no policy (R175). -/
def eccDecode (c : Cfg) (v : Variant) (raw : Byte) : Option EccResult :=
  match v with
  | .generic => none
  | .variantA => some (eccDecodeA c raw)
  | .variantB => some (eccDecodeB c raw)

/-- DecodeStatus (R173): the gate, the refusal under Generic (R175; log 18), the policy VARIANT selects. No
bus activity. -/
def decodeStatus (raw : Byte) (s : State) : Result :=
  gate s
    (match eccDecode s.cfg s.variant raw with
     | none => .refused .noPolicyForGeneric
     | some r => deliver (.ecc r) s)

/-- DecodeStatus.A (R171, R173). -/
def execDecodeStatusA (raw : Byte) (s : State) : Result := decodeStatus raw s

/-- DecodeStatus.B (R172, R173). -/
def execDecodeStatusB (raw : Byte) (s : State) : Result := decodeStatus raw s

end Sys2Proof.Machine
end

