-- ==== Sys2Proof/Machine/Identification.lean ====
section
/-! DEFINITION. Device Identification: the table lookup and Identify, the one operation that writes SNCB's
state (45_device_identification.md). -/

namespace Sys2Proof.Machine

/-- The lookup from index `i` on: the first row of `table` with both bytes, with its index. -/
def idLookupFrom (i : Nat) (table : List IdRow) (m d : Byte) : Option (Nat × IdRow) :=
  match table with
  | [] => none
  | row :: rows => if row.mfr = m ∧ row.dev = d then some (i, row) else idLookupFrom (i + 1) rows m d

/-- `IdLookup(m, d)` (R181): the row of the lowest index that matches exactly on both bytes. -/
def idLookup (table : List IdRow) (m d : Byte) : Option (Nat × IdRow) := idLookupFrom 0 table m d

/-- The manufacturer byte and the device byte of an ID response (R95). The response of a `Transmit` call for
two bytes has two, so the default of a shorter list is never taken. -/
def idBytes (id : List Byte) : Byte × Byte := (id.getD 0 0, id.getD 1 0)

/-- Identify after its ID read: found, VARIANT and LIFE are set (R182); not found, LIFE becomes FAILED and the
operation fails with UnknownDevice (R183). -/
def concludeIdentify (id : List Byte) (s : State) : Result :=
  match idLookup s.cfg.idTable (idBytes id).1 (idBytes id).2 with
  | some (i, row) => deliver (.identified row.variant i id) (attach row.variant s)
  | none => raise .unknownDevice (markFailed s)

/-- Identify (R180): the gate, the refusal in ATTACHED (R185; log 19), one ReadId command, the lookup. A
transport failure changes no state (R184). -/
def execIdentify (s : State) : Result :=
  gate s
    (if s.life = .attached then .refused .identifyWhenAttached
     else (dispatch (buildReadId s.cfg s.variant) s).finish concludeIdentify)

end Sys2Proof.Machine
end

