-- ==== Sys2Proof/Machine/Dispatch.lean ====
section
/-! DEFINITION. One arm for each row of the operation table. -/

namespace Sys2Proof.Machine

/-- The meaning of an instruction at a state whose `mode` and `answer` are the ones in force for it. -/
def exec (i : Instr) (s : State) : Host.Outcome State Fault Refusal :=
  match i with
  | .reset => Sys2Proof.Machine.execReset s
  | .readRegister reg => Sys2Proof.Machine.execReadRegister reg s
  | .writeRegister reg value => Sys2Proof.Machine.execWriteRegister reg value s
  | .writeEnable => Sys2Proof.Machine.execWriteEnable s
  | .writeDisable => Sys2Proof.Machine.execWriteDisable s
  | .readId => Sys2Proof.Machine.execReadId s
  | .writePage addr => Sys2Proof.Machine.execWritePage addr s
  | .loadPage addr => Sys2Proof.Machine.execLoadPage addr s
  | .blockErase addr => Sys2Proof.Machine.execBlockErase addr s
  | .storeCacheX1 offset buf => Sys2Proof.Machine.execStoreCacheX1 offset buf s
  | .storeCacheX4 offset buf => Sys2Proof.Machine.execStoreCacheX4 offset buf s
  | .readCacheX1 offset len => Sys2Proof.Machine.execReadCacheX1 offset len s
  | .readCacheX2 offset len => Sys2Proof.Machine.execReadCacheX2 offset len s
  | .readCacheX4 offset len => Sys2Proof.Machine.execReadCacheX4 offset len s
  | .decodeStatusA raw => Sys2Proof.Machine.execDecodeStatusA raw s
  | .decodeStatusB raw => Sys2Proof.Machine.execDecodeStatusB raw s
  | .identify => Sys2Proof.Machine.execIdentify s

end Sys2Proof.Machine
end

