-- ==== Sys2Proof/Machine/Fetch.lean ====
section
/-! DEFINITION. How the next operation comes: the head of the inputs, decoded (R23, R223, R230). It stands in
the place of an instruction fetch, which SNCB does not have (R66). -/

namespace Sys2Proof.Machine

/-- What the head of the inputs makes of the next step. -/
inductive Fetched
  /-- Nothing is pending. -/
  | idle
  /-- Hardware reset, with the state it meets. -/
  | resetting (s : State)
  /-- An instruction, with the state it runs in. -/
  | run (i : Instr) (s : State)
  /-- A request or a configuration that the model refuses. -/
  | refuse (r : Refusal)
  deriving DecidableEq, Repr

/-- A presented request, decoded at the boundary: the row its operation runs as under the Bus Mode presented
with it and the VARIANT held, and the state the row runs in. -/
def fetchRequest (p : Presented) (rest : List Input) (s : State) : Fetched :=
  match decodeReq s.cfg p.req with
  | .error why => .refuse (.noSuchRequest why)
  | .ok op => .run (selectRow op p.mode s.variant) (accept p rest s)

/-- The next operation, from the head of the inputs, under a configuration that meets its constraints (U13). -/
def fetch (s : State) : Fetched :=
  if s.cfg.wf then
    match s.pending with
    | [] => .idle
    | .hardwareReset :: rest => .resetting { s with pending := rest }
    | .request p :: rest => fetchRequest p rest s
  else .refuse .badConfiguration

/-- The request that runs as the row `i`, with a Bus Mode under which `i` is the row chosen and a transport
that answers `Ok` with zero bytes (log 30). -/
def requestFor (i : Instr) : Presented :=
  { req := encodeReq (opOfRow i), mode := modeOfRow i, answer := .ok ⟨[], 0⟩ }

/-- A request with the reserved selector 15 (R101): it stands for a word that is no command. -/
def reservedRequest : Presented :=
  { req := Req.blank 15, mode := BusMode.single, answer := .ok ⟨[], 0⟩ }

/-- The request a table word stands for: that of the row it decodes to (log 30). -/
def requestForWord (nbits w : Nat) : Presented :=
  match decodeTableWord nbits w with
  | some i => requestFor i
  | none => reservedRequest

end Sys2Proof.Machine
end

