-- ==== Sys2Proof/Machine/Step.lean ====
section
/-! DEFINITION. One step: the next input, and the whole operation it asks for as one atomic step (R33, R63). -/

namespace Sys2Proof.Machine

/-- One step of the instance. With nothing pending, nothing happens (R223; log 12). -/
def step (s : State) : Host.Outcome State Fault Refusal :=
  match fetch s with
  | .idle => .next s
  | .resetting s' => .next (hardwareReset s')
  | .run i s' => exec i s'
  | .refuse r => .refused r

/-- `s` with the request for a table word presented next, before whatever else is pending. -/
def State.withFetchWord (s : State) (nbits w : Nat) : State :=
  { s with pending := .request (requestForWord nbits w) :: s.pending }

end Sys2Proof.Machine
end

