-- ==== Sys2Proof/Machine/Build.lean ====
section
/-! DEFINITION. The Command Builder as one function of the operation (R14, R116). -/

namespace Sys2Proof.Machine

/-- `Build(op, params, mode)` (R14, R116): the descriptor an operation hands to the dispatcher, or the error
it raises first. Identify's is ReadId's (R180); DecodeStatus builds none (R173). It reads its arguments and
the configuration and nothing else. -/
def build (c : Cfg) (mode : BusMode) (v : Variant) : Op → Option (Except ErrorKind Descriptor)
  | .reset => some (.ok (buildReset c))
  | .readRegister reg => some (.ok (buildReadRegister c reg))
  | .writeRegister reg value => some (.ok (buildWriteRegister c reg value))
  | .writeEnable => some (.ok (buildWriteEnable c))
  | .writeDisable => some (.ok (buildWriteDisable c))
  | .writePage a => some (buildWritePage c a)
  | .loadPage a => some (buildLoadPage c a)
  | .blockErase a => some (buildBlockErase c a)
  | .storeCache o buf => some (.ok (buildStoreCache c o buf mode))
  | .readCache o len => some (.ok (buildReadCache c o len mode))
  | .readId => some (.ok (buildReadId c v))
  | .decodeStatus _ => none
  | .identify => some (.ok (buildReadId c v))

end Sys2Proof.Machine
end

