-- ==== Sys2Proof/Safety.lean ====
section
/-! DEFINITION. What the statements are written in: the invariant of LIFE and VARIANT, what an operation
needs to complete, and what one operation leaves on the bus (R27, R60, R67, R173, R185). -/

namespace Sys2Proof.Machine

/-- The invariant between LIFE and VARIANT (R27). ATTACHED means that VARIANT is the variant of a row of
ID_TABLE; UNATTACHED and FAILED mean Generic. -/
def LifecycleInv (s : State) : Prop :=
  match s.life with
  | .unattached => s.variant = .generic
  | .failed => s.variant = .generic
  | .attached => ∃ row ∈ s.cfg.idTable, row.variant = s.variant

/-- The operation has a meaning in the state the spec gives: in FAILED every operation has (R157); else
DecodeStatus needs a policy (R175) and Identify an instance that is not attached (R185). -/
def Answerable (op : Op) (s : State) : Prop :=
  s.life = .failed ∨
    match op with
    | .decodeStatus _ => s.variant ≠ .generic
    | .identify => s.life ≠ .attached
    | .reset | .readRegister _ | .writeRegister _ _ | .writeEnable | .writeDisable | .writePage _
    | .loadPage _ | .blockErase _ | .storeCache _ _ | .readCache _ _ | .readId => True

/-- The page address of an operation that has one (R51). -/
def pageAddress? : Op → Option Nat
  | .writePage a => some a
  | .loadPage a => some a
  | .blockErase a => some a
  | .reset | .readRegister _ | .writeRegister _ _ | .writeEnable | .writeDisable | .storeCache _ _
  | .readCache _ _ | .readId | .decodeStatus _ | .identify => none

/-- The operation reads the Bus Mode (R30, R89). -/
def readsBusMode : Op → Bool
  | .storeCache _ _ => true
  | .readCache _ _ => true
  | .reset | .readRegister _ | .writeRegister _ _ | .writeEnable | .writeDisable | .writePage _
  | .loadPage _ | .blockErase _ | .readId | .decodeStatus _ | .identify => false

/-- `t` agrees with `s` on everything an operation may not write: the configuration, the Bus Mode, the
transport's answer and the inputs still to come (R34). -/
def SameSurroundings (s t : State) : Prop :=
  t.cfg = s.cfg ∧ t.mode = s.mode ∧ t.answer = s.answer ∧ t.pending = s.pending

/-- Two outcomes are the same but for the histories they started from: the same kind of stop, or next states
with the same state elements and response whose bus logs grew by the same calls. -/
def SameEffect (s₁ s₂ : State) : Result → Result → Prop
  | .next t₁, .next t₂ =>
    t₁.life = t₂.life ∧ t₁.variant = t₂.variant ∧ t₁.rsp = t₂.rsp ∧
      ∃ sent, t₁.busLog = s₁.busLog ++ sent ∧ t₂.busLog = s₂.busLog ++ sent
  | .fault f₁, .fault f₂ => f₁ = f₂
  | .refused r₁, .refused r₂ => r₁ = r₂
  | .next _, .fault _ => False
  | .next _, .refused _ => False
  | .fault _, .next _ => False
  | .fault _, .refused _ => False
  | .refused _, .next _ => False
  | .refused _, .fault _ => False

end Sys2Proof.Machine
end

