-- ==== Sys2Proof/Certificates/Slice0/Obligations.lean ====
section
/-! DEFINITION. The statements for the provers, in the order of spec/'s files. A statement holds for every
configuration, Bus Mode and transport answer, since these stand in State. -/

open Sys2Proof Sys2Proof.Machine

/-! ## State, reset and the lifecycle (10_state.md, 70_reset_and_hazards.md) -/

/-- After hardware reset LIFE is UNATTACHED and VARIANT is Generic, at power-on and wherever a hardware reset
meets the instance (R35; the values are the spec's own decision D16, log 24). -/
def Obligations.ResetLeavesUnattachedGeneric : Prop :=
  State.reset.life = .unattached ∧ State.reset.variant = .generic ∧
  ∀ s : State, (hardwareReset s).life = .unattached ∧ (hardwareReset s).variant = .generic

/-- A step whose input is a hardware reset (70_reset_and_hazards.md section 1): LIFE and VARIANT take their
reset values and the configuration stays. That the last response is forgotten, that the bus log and the
pending inputs stay, and that a reset is an input of the same list are the model's choice (log 13). -/
def Obligations.HardwareResetStep : Prop :=
  ∀ (s : State) (rest : List Input), s.cfg.wf = true → s.pending = .hardwareReset :: rest →
    step s = .next { s with life := .unattached, variant := .generic, rsp := none, pending := rest }

/-- The invariant of R27 holds right after reset. -/
def Obligations.ResetMeetsLifecycleInvariant : Prop := LifecycleInv State.reset

/-- The invariant of R27 is kept by every step, from every state that meets it. -/
def Obligations.StepKeepsLifecycleInvariant : Prop :=
  ∀ s t : State, LifecycleInv s → step s = .next t → LifecycleInv t

/-- R27: without a hardware reset the only transitions of LIFE are UNATTACHED to ATTACHED and UNATTACHED to
FAILED, and VARIANT changes only with the first. -/
def Obligations.LifecycleTransitions : Prop :=
  ∀ s t : State, step s = .next t → s.pending.head? ≠ some .hardwareReset →
    (t.life = s.life ∧ t.variant = s.variant) ∨
    (s.life = .unattached ∧ t.life = .attached) ∨
    (s.life = .unattached ∧ t.life = .failed ∧ t.variant = s.variant)

/-- R26, R182, R183: along every run without a hardware reset, an instance that is ATTACHED or FAILED stays so
and its VARIANT never changes. -/
def Obligations.IdentificationLastsForTheLifetime : Prop :=
  ∀ (n : Nat) (s t : State), Sys2Proof.core.run n s = .next t → s.life ≠ .unattached →
    Input.hardwareReset ∉ s.pending → t.life = s.life ∧ t.variant = s.variant

/-- R157, R237: along every run without a hardware reset, nothing a FAILED instance is asked reaches the
bus. -/
def Obligations.FailedInstanceIsSilent : Prop :=
  ∀ (n : Nat) (s t : State), Sys2Proof.core.run n s = .next t → s.life = .failed →
    Input.hardwareReset ∉ s.pending → t.busLog = s.busLog

/-- R60, R63, R154: along every run the bus log only grows at its end, by at most one call a step, each with a
command leg first and at most one data leg. That the command leg is on one lane is the spec's decision D8
(43_transport_dispatcher.md section 1; log 31). The configuration stays, since it is constant while the
instance lives (R34, R224; that it stands in State is the model's choice, log 1). -/
def Obligations.RunAppendsWholeTransactionsInOrder : Prop :=
  ∀ (n : Nat) (s t : State), Sys2Proof.core.run n s = .next t →
    t.cfg = s.cfg ∧
    ∃ calls : List (List Leg), t.busLog = s.busLog ++ calls ∧ calls.length ≤ n ∧
      ∀ call ∈ calls, ∃ bytes data, call = Leg.tx bytes .one :: data ∧ bytes ≠ [] ∧ data.length ≤ 1

/-! ## The step (R21, R23, R101, R223) -/

/-- A step runs the decoded request as the row that the Bus Mode presented with it and VARIANT select, with
the presented mode and answer in force. That the inputs stand in a list and that the earlier response is
cleared are the model's choice (log 12, 15). -/
def Obligations.StepRunsTheDecodedRequest : Prop :=
  ∀ (s : State) (p : Presented) (rest : List Input) (op : Op), s.cfg.wf = true →
    s.pending = .request p :: rest → decodeReq s.cfg p.req = .ok op →
    step s = exec (selectRow op p.mode s.variant)
      { s with pending := rest, mode := p.mode, answer := p.answer, rsp := none }

/-- With nothing pending nothing happens: "SNCB executes nothing until a request arrives" (R223). That a step
with no request is an idle step is the model's choice (log 12). -/
def Obligations.StepWithNothingPendingIsIdle : Prop :=
  ∀ s : State, s.cfg.wf = true → s.pending = [] → step s = .next s

/-- A request with OPSEL 13, 14 or 15 names no operation and is refused at the boundary (R101, the spec's
decision D22; log 20). -/
def Obligations.ReservedSelectorIsRefused : Prop :=
  ∀ (s : State) (p : Presented) (rest : List Input), s.cfg.wf = true →
    s.pending = .request p :: rest → 13 ≤ p.req.op.toNat →
    step s = .refused (.noSuchRequest (.reservedSelector p.req.op))

/-- U13: a configuration outside its constraints is refused, whatever is pending. -/
def Obligations.IllFormedConfigurationIsRefused : Prop :=
  ∀ s : State, (5 < s.cfg.eccShift ∨ s.cfg.eccAUncorr = 0 ∨ s.cfg.addrInW < 24 ∨ ¬ s.cfg.opcodes.Nodup) →
    step s = .refused .badConfiguration

/-- R21 (10_state.md section 1), with the operands R100 gives each operation: a field of the request record that
the operation does not read has no effect on the step, whatever it holds. -/
def Obligations.UnreadRequestFieldsHaveNoEffect : Prop :=
  ∀ (s : State) (r r' : Req) (mode : BusMode) (answer : TransmitAnswer) (rest : List Input),
    r'.op = r.op →
    (r.op.toNat ∈ [5, 6, 7] → r'.addr = r.addr) →
    (r.op.toNat ∈ [1, 2] → r'.reg = r.reg) →
    (r.op.toNat ∈ [2] → r'.value = r.value) →
    (r.op.toNat ∈ [8, 9] → r'.offset = r.offset) →
    (r.op.toNat ∈ [8, 9] → r'.len = r.len) →
    (r.op.toNat ∈ [8] → r'.buf = r.buf) →
    (r.op.toNat ∈ [11] → r'.raw = r.raw) →
    step { s with pending := .request ⟨r', mode, answer⟩ :: rest } =
      step { s with pending := .request ⟨r, mode, answer⟩ :: rest }

/-- R67: "No operation in this core blocks indefinitely". If the transport returns, every request that has a
meaning in the state is answered by the next step, with a response, and the later inputs still to come. -/
def Obligations.EveryAnswerableRequestIsAnswered : Prop :=
  ∀ (s : State) (p : Presented) (rest : List Input) (op : Op), s.cfg.wf = true →
    s.pending = .request p :: rest → decodeReq s.cfg p.req = .ok op → Answerable op s →
    p.answer ≠ .never →
    ∃ t r, step s = .next t ∧ t.rsp = some r ∧ t.pending = rest

/-- A step stops only by a name and for a listed reason. From the spec: a transport that does not return (U8), a
configuration outside its constraints (U13), a reserved selector (R101), DecodeStatus under Generic (R175),
Identify while attached (R185). The model's own choice, read from the widths and the buffer of the request
record in 10_state.md section 1: a record whose address or length is wider than its port (log 20), and a
StoreCache record whose buffer is not as long as its length field (log 21). -/
def Obligations.StepStopsOnlyForNamedReasons : Prop :=
  ∀ s : State,
    (∀ f, step s = .fault f → s.life ≠ .failed ∧
      ∃ p rest, s.pending = .request p :: rest ∧ p.answer = .never) ∧
    (∀ r, step s = .refused r →
      (r = .badConfiguration ∧ s.cfg.wf = false) ∨
      (∃ p rest why, s.pending = .request p :: rest ∧ decodeReq s.cfg p.req = .error why ∧
        r = .noSuchRequest why) ∨
      (∃ p rest raw, s.pending = .request p :: rest ∧ decodeReq s.cfg p.req = .ok (.decodeStatus raw) ∧
        s.variant = .generic ∧ s.life ≠ .failed ∧ r = .noPolicyForGeneric) ∨
      (∃ p rest, s.pending = .request p :: rest ∧ decodeReq s.cfg p.req = .ok .identify ∧
        s.life = .attached ∧ r = .identifyWhenAttached))

/-- The request for a table word makes the next step run exactly the instruction the word decodes to, under a
Bus Mode that selects its row (log 30). -/
def Obligations.FetchWordRunsTheTableWord : Prop :=
  ∀ (s : State) (nbits w : Nat) (i : Instr), decodeTableWord nbits w = some i → s.cfg.wf = true →
    step (s.withFetchWord nbits w) =
      exec i { s with mode := modeOfRow i, answer := .ok ⟨[], 0⟩, rsp := none }

/-! ## Encodings (30_encoding.md) -/

/-- R134, R85: the address bytes of every address below 2^24 and the offset bytes of every offset give the
number back, read big-endian. -/
def Obligations.AddressAndOffsetBytesRoundTrip : Prop :=
  (∀ a : Nat, a < 2 ^ 24 → ∃ b1 b2 b3 : Byte, packAddr a = .ok (b1, b2, b3) ∧
    b1.toNat * 65536 + b2.toNat * 256 + b3.toNat = a) ∧
  (∀ o : Offset, (packOffset o).1.toNat * 256 + (packOffset o).2.toNat = o.toNat)

/-- R196, R130: AddressOutOfRange is raised exactly for a page address of 2^24 or more, never truncated, before
any descriptor exists, so nothing reaches the bus; an address below gives its three bytes, most significant
first; no operation without a page address has a range error. -/
def Obligations.AddressOutOfRangeReachesNoBus : Prop :=
  (∀ a : Nat,
    (2 ^ 24 ≤ a → packAddr a = .error (.addressOutOfRange a)) ∧
    (a < 2 ^ 24 → packAddr a =
      .ok (BitVec.ofNat 8 (a / 65536), BitVec.ofNat 8 (a / 256), BitVec.ofNat 8 a))) ∧
  (∀ (c : Cfg) (mode : BusMode) (v : Variant) (op : Op) (e : ErrorKind),
    build c mode v op = some (.error e) ↔
      ∃ a, pageAddress? op = some a ∧ 2 ^ 24 ≤ a ∧ e = .addressOutOfRange a) ∧
  (∀ (i : Instr) (s : State) (a : Nat), pageAddress? (opOfRow i) = some a → 2 ^ 24 ≤ a →
    s.life ≠ .failed → exec i s = .next { s with rsp := some (.error (.addressOutOfRange a)) })

/-- The request encoding loses nothing (R21, R100): every operation whose operands fit their ports is read
back from its record, and every row that has a command is the row selected for its operation under a Bus Mode
that meets its condition. -/
def Obligations.RequestEncodingRoundTrips : Prop :=
  (∀ (c : Cfg) (op : Op), op.wf c = true → decodeReq c (encodeReq op) = .ok op) ∧
  (∀ (op : Op) (mode : BusMode) (v : Variant), opOfRow (selectRow op mode v) = op) ∧
  (∀ (i : Instr) (v : Variant), i.encodable = true → selectRow (opOfRow i) (modeOfRow i) v = i)

/-- R88, R89: which row an operation runs as, for the operations that have several. -/
def Obligations.BusModeAndVariantSelectTheRow : Prop :=
  ∀ (mode : BusMode) (v : Variant) (o : Offset) (buf : List Byte) (len : Nat) (raw : Byte),
    (selectRow (.storeCache o buf) mode v = .storeCacheX4 o buf ↔ mode.txQuad = true) ∧
    (selectRow (.storeCache o buf) mode v = .storeCacheX1 o buf ↔ mode.txQuad = false) ∧
    (selectRow (.readCache o len) mode v = .readCacheX4 o len ↔ mode.rxQuad = true) ∧
    (selectRow (.readCache o len) mode v = .readCacheX2 o len ↔
      mode.rxQuad = false ∧ mode.rxDual = true) ∧
    (selectRow (.readCache o len) mode v = .readCacheX1 o len ↔
      mode.rxQuad = false ∧ mode.rxDual = false) ∧
    (v = .variantA → selectRow (.decodeStatus raw) mode v = .decodeStatusA raw) ∧
    (v = .variantB → selectRow (.decodeStatus raw) mode v = .decodeStatusB raw)

/-- R90: with distinct opcodes, the inverse map reads every row's descriptor back as that row with every
operand; every row with a command has one. Identify's command is ReadId's, so it is left out of the first
clause. -/
def Obligations.DescriptorDecodesToItsRow : Prop :=
  (∀ (c : Cfg) (i : Instr) (d : Descriptor), c.wf = true → i ≠ .identify → encode c i = some d →
    decode c d = .ok i) ∧
  (∀ (c : Cfg) (i : Instr), i.encodable = true ↔ ∃ d, encode c i = some d)

/-- R90, R92: a descriptor the inverse map accepts is the descriptor of the row it reads, but for the width of
an absent leg, which is not read; so every string that no row gives is refused. -/
def Obligations.DecodedDescriptorIsTheRowsOwn : Prop :=
  ∀ (c : Cfg) (d : Descriptor) (i : Instr), decode c d = .ok i →
    ∃ leg, d.dataLeg? = some leg ∧ encode c i = some (Descriptor.ofRow d.commandBytes leg)

/-- R9, R83: with distinct opcodes the first command byte alone tells the length of the command, which is 1
to 5 bytes. -/
def Obligations.FirstByteTellsTheCommandLength : Prop :=
  ∀ (c : Cfg) (i j : Instr) (di dj : Descriptor), c.wf = true →
    encode c i = some di → encode c j = some dj →
    di.commandBytes.toList.head? = dj.commandBytes.toList.head? →
    di.commandBytes.toList.length = dj.commandBytes.toList.length ∧
    1 ≤ di.commandBytes.toList.length ∧ di.commandBytes.toList.length ≤ 5

/-- Some command words written out from the operation table, at the default opcodes (PRESUMED, log 2):
Reset, ReadRegister 0xC0, WriteRegister 0xA0, BlockErase 0x012345, StoreCache.x4 at 0x0800, ReadCache.x1
and ReadCache.x2 at 0x1234; and words that are no command. -/
def Obligations.SampleCommandWordsDecode : Prop :=
  decodeTableWord 8 0xFF = some .reset ∧
  decodeTableWord 16 0x0FC0 = some (.readRegister 0xC0) ∧
  decodeTableWord 16 0x1FA0 = some (.writeRegister 0xA0 0) ∧
  decodeTableWord 32 0xD8012345 = some (.blockErase 0x012345) ∧
  decodeTableWord 24 0x320800 = some (.storeCacheX4 0x0800 []) ∧
  decodeTableWord 32 0x03001234 = some (.readCacheX1 0x1234 0) ∧
  decodeTableWord 40 0x3B00123400 = some (.readCacheX2 0x1234 0) ∧
  decodeTableWord 8 0x00 = none ∧ decodeTableWord 32 0x03011234 = none

/-! ## The Command Builder (40, 41, 42) -/

/-- R110, R113, R114: Reset, WriteEnable and WriteDisable build a descriptor of their one opcode byte with no
data leg, send it, and change nothing of the instance. -/
def Obligations.OneByteCommandsComplete : Prop :=
  ∀ (s : State) (mode : BusMode) (v : Variant) (i : Instr) (opcode : Byte),
    (i, opcode) ∈ [(Instr.reset, s.cfg.opcReset), (Instr.writeEnable, s.cfg.opcWriteEnable),
      (Instr.writeDisable, s.cfg.opcWriteDisable)] →
    build s.cfg mode v (opOfRow i) = some (.ok ⟨.b1 opcode, none, none, .one, .one⟩) ∧
    ∀ rx, s.life ≠ .failed → s.answer = .ok rx →
      exec i s = .next { s with
        busLog := s.busLog ++ [legs ⟨.b1 opcode, none, none, .one, .one⟩], rsp := some .done }

/-- R111: ReadRegister builds [GET_FEATURE, reg] with a one-byte receive leg, sends it, and reports the byte
received unchanged; it keeps nothing of it. -/
def Obligations.ReadRegisterCompletes : Prop :=
  ∀ (s : State) (mode : BusMode) (v : Variant) (reg : Byte),
    build s.cfg mode v (.readRegister reg) =
      some (.ok ⟨.b2 s.cfg.opcGetFeature reg, none, some 1, .one, .one⟩) ∧
    ∀ rx, s.life ≠ .failed → s.answer = .ok rx →
      exec (.readRegister reg) s = .next { s with
        busLog := s.busLog ++ [legs ⟨.b2 s.cfg.opcGetFeature reg, none, some 1, .one, .one⟩],
        rsp := some (.data [rx.bytes.getD 0 rx.idle]) }

/-- R112: WriteRegister builds [SET_FEATURE, reg], two bytes, with the value as a one-byte transmit payload,
and sends it. -/
def Obligations.WriteRegisterCompletes : Prop :=
  ∀ (s : State) (mode : BusMode) (v : Variant) (reg value : Byte),
    build s.cfg mode v (.writeRegister reg value) =
      some (.ok ⟨.b2 s.cfg.opcSetFeature reg, some [value], none, .one, .one⟩) ∧
    ∀ rx, s.life ≠ .failed → s.answer = .ok rx →
      exec (.writeRegister reg value) s = .next { s with
        busLog := s.busLog ++ [legs ⟨.b2 s.cfg.opcSetFeature reg, some [value], none, .one, .one⟩],
        rsp := some .done }

/-- ReadId (40_builder_simple.md section 2): it builds [READ_ID] with a two-byte receive leg for every variant
(for Generic the length is the spec's decision D29), sends it, reports the bytes, looks nothing up and
changes no state. -/
def Obligations.ReadIdCompletes : Prop :=
  ∀ (s : State) (mode : BusMode) (v : Variant),
    build s.cfg mode v .readId = some (.ok ⟨.b1 s.cfg.opcReadId, none, some 2, .one, .one⟩) ∧
    ∀ rx, s.life ≠ .failed → s.answer = .ok rx →
      exec .readId s = .next { s with
        busLog := s.busLog ++ [legs ⟨.b1 s.cfg.opcReadId, none, some 2, .one, .one⟩],
        rsp := some (.data (received rx 2)) }

/-- R131, R132, R133: the three page-address operations build their opcode and the address big-endian in three
bytes with no data leg, as given, and send it; for an address of 2^24 or more `Build` raises
AddressOutOfRange. -/
def Obligations.PageOperationsComplete : Prop :=
  ∀ (s : State) (mode : BusMode) (v : Variant) (i : Instr) (opcode : Byte) (a : Nat) (d : Descriptor),
    (i, opcode) ∈ [(Instr.writePage a, s.cfg.opcProgramExec), (Instr.loadPage a, s.cfg.opcPageRead),
      (Instr.blockErase a, s.cfg.opcBlockErase)] →
    d = ⟨.b4 opcode (BitVec.ofNat 8 (a / 65536)) (BitVec.ofNat 8 (a / 256)) (BitVec.ofNat 8 a),
      none, none, .one, .one⟩ →
    (2 ^ 24 ≤ a → build s.cfg mode v (opOfRow i) = some (.error (.addressOutOfRange a))) ∧
    (a < 2 ^ 24 → build s.cfg mode v (opOfRow i) = some (.ok d) ∧
      ∀ rx, s.life ≠ .failed → s.answer = .ok rx →
        exec i s = .next { s with busLog := s.busLog ++ [legs d], rsp := some .done })

/-- StoreCache (42_builder_cache.md section 2): it sends the offset big-endian behind the quad opcode iff TX_QUAD
is set, and the buffer byte for byte on four lanes iff TX_QUAD is set, for every length. Both rows have this
meaning and the mode in force decides (log 16). An empty payload keeps its leg and the command leg is one
lane by the spec's decisions D11 and D8. -/
def Obligations.StoreCacheCompletes : Prop :=
  ∀ (s : State) (v : Variant) (i : Instr) (o : Offset) (buf : List Byte) (rx : RxStream),
    i ∈ [Instr.storeCacheX1 o buf, Instr.storeCacheX4 o buf] →
    build s.cfg s.mode v (opOfRow i) = some (.ok
      ⟨.b3 (if s.mode.txQuad then s.cfg.opcProgramLoadX4 else s.cfg.opcProgramLoad)
          (BitVec.ofNat 8 (o.toNat / 256)) (BitVec.ofNat 8 o.toNat),
        some buf, none, if s.mode.txQuad then .four else .one, .one⟩) ∧
    (s.life ≠ .failed → s.answer = .ok rx →
      exec i s = .next { s with
        busLog := s.busLog ++
          [[.tx [if s.mode.txQuad then s.cfg.opcProgramLoadX4 else s.cfg.opcProgramLoad,
              BitVec.ofNat 8 (o.toNat / 256), BitVec.ofNat 8 o.toNat] .one,
            .tx buf (if s.mode.txQuad then .four else .one)]],
        rsp := some .done })

/-- ReadCache (42_builder_cache.md section 2): it sends five bytes with dummies second and last in the quad and
dual forms, four with one dummy second in the plain form, quad before dual, and receives `len` bytes on the
form's lanes. All three rows have this meaning and the mode in force decides (log 16). The dummy value 0x00,
the leg of an empty payload and the command leg's one lane are the spec's decisions D3, D11 and D8. -/
def Obligations.ReadCacheCompletes : Prop :=
  ∀ (s : State) (v : Variant) (i : Instr) (o : Offset) (len : Nat) (rx : RxStream),
    i ∈ [Instr.readCacheX1 o len, Instr.readCacheX2 o len, Instr.readCacheX4 o len] →
    ∀ (oh ol : Byte), oh = BitVec.ofNat 8 (o.toNat / 256) → ol = BitVec.ofNat 8 o.toNat →
    ∀ (cmd : CommandBytes) (w : Lanes),
      (cmd, w) = (if s.mode.rxQuad then (CommandBytes.b5 s.cfg.opcReadCacheX4 0 oh ol 0, Lanes.four)
        else if s.mode.rxDual then (CommandBytes.b5 s.cfg.opcReadCacheX2 0 oh ol 0, Lanes.two)
        else (CommandBytes.b4 s.cfg.opcReadCache 0 oh ol, Lanes.one)) →
      build s.cfg s.mode v (opOfRow i) = some (.ok ⟨cmd, none, some len, .one, w⟩) ∧
      (s.life ≠ .failed → s.answer = .ok rx →
        exec i s = .next { s with
          busLog := s.busLog ++ [[.tx cmd.toList .one, .rx len w]],
          rsp := some (.data (received rx len)) })

/-- R118, R30, R89: only StoreCache and ReadCache depend on the Bus Mode; StoreCache reads only TX_QUAD,
ReadCache only the two receive flags. -/
def Obligations.BusModeReachesOnlyTheCacheOperations : Prop :=
  ∀ (i : Instr) (s : State) (m : BusMode),
    (readsBusMode (opOfRow i) = true →
      (∀ o buf, opOfRow i = .storeCache o buf → m.txQuad = s.mode.txQuad) ∧
      (∀ o len, opOfRow i = .readCache o len →
        m.rxQuad = s.mode.rxQuad ∧ m.rxDual = s.mode.rxDual)) →
    SameEffect s { s with mode := m } (exec i s) (exec i { s with mode := m })

/-- The table's columns and the builder rules agree (R88 against R110 to R143): what `Build` returns is the
descriptor of the row that the Bus Mode and VARIANT select. -/
def Obligations.BuildGivesTheSelectedRowsDescriptor : Prop :=
  ∀ (c : Cfg) (mode : BusMode) (v : Variant) (op : Op) (d : Descriptor),
    build c mode v op = some (.ok d) → encode c (selectRow op mode v) = some d

/-- Every descriptor a builder returns has 1 to 5 command bytes, at most one payload, width 1 in a direction
without a payload, and width 1 in both unless the operation is StoreCache or ReadCache; so no operation is
ever answered InvalidCommand or ConflictingDirection. (The spec derives this in R156; widths by its
decisions D9 and D10.) -/
def Obligations.BuiltDescriptorsPassTheChecks : Prop :=
  (∀ (c : Cfg) (mode : BusMode) (v : Variant) (op : Op) (d : Descriptor),
    build c mode v op = some (.ok d) →
    1 ≤ d.commandBytes.toList.length ∧ d.commandBytes.toList.length ≤ 5 ∧
    (d.txPayload = none ∨ d.rxPayload = none) ∧
    (d.txPayload = none → d.txBitWidth = .one) ∧ (d.rxPayload = none → d.rxBitWidth = .one) ∧
    (readsBusMode op = false → d.txBitWidth = .one ∧ d.rxBitWidth = .one)) ∧
  (∀ (i : Instr) (s t : State), exec i s = .next t →
    t.rsp ≠ some (.error .invalidCommand) ∧ t.rsp ≠ some (.error .conflictingDirection))

/-! ## The Transport Dispatcher and the whole operation (43) -/

/-- The dispatcher over any descriptor (R150, R151; which check comes first is the spec's decision D15). Empty
is InvalidCommand, even with both payloads present; both payloads present, whatever their lengths, is
ConflictingDirection; neither is sent. Any other descriptor is sent in one call with all its legs, and the
answer decides. -/
def Obligations.DispatchChecksThenSendsOnce : Prop :=
  ∀ (d : Descriptor) (s : State),
    (d.commandBytes = .b0 → dispatch d s = .raised .invalidCommand s) ∧
    (d.commandBytes ≠ .b0 → d.txPayload.isSome = true → d.rxPayload.isSome = true →
      dispatch d s = .raised .conflictingDirection s) ∧
    (d.commandBytes ≠ .b0 → (d.txPayload = none ∨ d.rxPayload = none) →
      (∀ rx, s.answer = .ok rx → dispatch d s =
        .ok (received rx (d.rxPayload.getD 0)) { s with busLog := s.busLog ++ [legs d] }) ∧
      (∀ e, s.answer = .err e → dispatch d s =
        .raised (.transportFailure e) { s with busLog := s.busLog ++ [legs d] }) ∧
      (s.answer = .never → dispatch d s = .stuck))

/-- The legs of a descriptor that passed the checks (R152; the command leg's one lane and the leg of an empty
payload are the spec's decisions D8 and D11): the command bytes on one lane, then the payload that
is present, empty or not, on its own width; the width of an absent direction is not read. -/
def Obligations.LegsAreCommandThenAtMostOneDataLeg : Prop :=
  ∀ (cb : CommandBytes) (w w' : Lanes),
    legs ⟨cb, none, none, w, w'⟩ = [.tx cb.toList .one] ∧
    (∀ data, legs ⟨cb, some data, none, w, w'⟩ = [.tx cb.toList .one, .tx data w]) ∧
    (∀ n, legs ⟨cb, none, some n, w, w'⟩ = [.tx cb.toList .one, .rx n w'])

/-- R13, R153: a receive buffer is filled with exactly its length, byte k being byte k of what the
environment delivers. That the environment's bytes go on as an idle line is the model's choice (log 9). -/
def Obligations.ReceiveBufferIsFilledInArrivalOrder : Prop :=
  ∀ (rx : RxStream) (n : Nat), (received rx n).length = n ∧
    ∀ k, k < n → (received rx n)[k]? = some (rx.bytes.getD k rx.idle)

/-- R155, with the gate of R157: a builder operation is the gate, then `Build` under the Bus Mode and VARIANT in
force, then `Dispatch`; it writes no state element but the call it makes and its response. -/
def Obligations.ExecIsGateThenBuildThenDispatch : Prop :=
  ∀ (i : Instr) (s : State) (built : Except ErrorKind Descriptor), i ≠ .identify →
    build s.cfg s.mode s.variant (opOfRow i) = some built →
    exec i s =
      if s.life = .failed then .next { s with rsp := some (.error .unknownDevice) }
      else match built with
        | .error e => .next { s with rsp := some (.error e) }
        | .ok d =>
          match dispatch d s with
          | .ok rx s' =>
            .next { s' with rsp := some (if d.rxPayload.isSome then .data rx else .done) }
          | .raised e s' => .next { s' with rsp := some (.error e) }
          | .stuck => .fault .transmitNeverReturns

/-- The lifecycle gate (R157, the spec's decisions D17 and D32): in FAILED every request of any operation is
answered UnknownDevice with nothing sent, before any other check; in UNATTACHED and ATTACHED every builder
operation is accepted, whatever VARIANT is. -/
def Obligations.FailedInstanceAnswersUnknownDevice : Prop :=
  (∀ (i : Instr) (s : State), s.life = .failed →
    exec i s = .next { s with rsp := some (.error .unknownDevice) }) ∧
  (∀ (i : Instr) (s : State) (d : Descriptor) (rx : RxStream), i ≠ .identify → s.life ≠ .failed →
    build s.cfg s.mode s.variant (opOfRow i) = some (.ok d) → s.answer = .ok rx →
    ∃ t, exec i s = .next t ∧ t.busLog = s.busLog ++ [legs d] ∧
      (t.rsp = some .done ∨ t.rsp = some (.data (received rx (d.rxPayload.getD 0)))))

/-- A transport failure (R193, 60_exceptions.md section 1) is the response of the operation, carried verbatim, for
any error the transport answers, in every operation that calls `Transmit`: the builder operations and Identify.
There is exactly one call and no state element changes (60_exceptions.md section 2). That Identify, too, leaves
LIFE and VARIANT as they were is the spec's decision D20 (log 31). -/
def Obligations.TransportFailureIsPassedThrough : Prop :=
  ∀ (i : Instr) (s : State) (d : Descriptor) (e : TransportError),
    build s.cfg s.mode s.variant (opOfRow i) = some (.ok d) → s.life ≠ .failed →
    (i = .identify → s.life = .unattached) → s.answer = .err e →
    exec i s = .next { s with
      busLog := s.busLog ++ [legs d], rsp := some (.error (.transportFailure e)) }

/-- U8: an operation whose `Transmit` call does not return is stuck, by name. -/
def Obligations.TransmitThatNeverReturnsIsStuck : Prop :=
  ∀ (i : Instr) (s : State) (d : Descriptor),
    build s.cfg s.mode s.variant (opOfRow i) = some (.ok d) → s.life ≠ .failed →
    (i = .identify → s.life = .unattached) → s.answer = .never →
    exec i s = .fault .transmitNeverReturns

/-- The frame of every instruction (R37, R155, R160, R195): the configuration, the Bus Mode, the answer and the
inputs to come are unchanged; LIFE and VARIANT are unchanged but by Identify of an UNATTACHED instance; the
bus log is unchanged or longer by the one call of the operation's own descriptor, and unchanged by
DecodeStatus, in FAILED, and where `Build` raised. -/
def Obligations.InstructionFrame : Prop :=
  ∀ (i : Instr) (s t : State), exec i s = .next t →
    SameSurroundings s t ∧ t.rsp ≠ none ∧
    (i ≠ .identify ∨ s.life ≠ .unattached → t.life = s.life ∧ t.variant = s.variant) ∧
    (t.busLog = s.busLog ∨ ∃ d, build s.cfg s.mode s.variant (opOfRow i) = some (.ok d) ∧
      t.busLog = s.busLog ++ [legs d]) ∧
    (s.life = .failed ∨ (∀ d, build s.cfg s.mode s.variant (opOfRow i) ≠ some (.ok d)) →
      t.busLog = s.busLog)

/-- R32, R238, R20: nothing of an earlier operation reaches a later one. Two states that agree on the
configuration, LIFE, VARIANT, the Bus Mode and the answer give the same effect, whatever their bus logs,
earlier responses and later inputs are. -/
def Obligations.NothingStaleReachesALaterOperation : Prop :=
  ∀ (i : Instr) (s₁ s₂ : State), s₁.cfg = s₂.cfg → s₁.life = s₂.life → s₁.variant = s₂.variant →
    s₁.mode = s₂.mode → s₁.answer = s₂.answer → SameEffect s₁ s₂ (exec i s₁) (exec i s₂)

/-- A hardware command buffer (R32, the spec's decision D24) has five positions; the command bytes come first
and every later position reads 0x00. -/
def Obligations.CommandBufferIsZeroBeyondTheCommand : Prop :=
  ∀ d : Descriptor, (commandBuffer d).length = 5 ∧
    (∀ k, k < d.commandBytes.toList.length → (commandBuffer d)[k]? = d.commandBytes.toList[k]?) ∧
    (∀ k, d.commandBytes.toList.length ≤ k → k < 5 → (commandBuffer d)[k]? = some 0x00)

/-! ## The Vendor ECC Decoder (44) -/

/-- The policy of R171: under VariantA the status byte's two bits at ECC_SHIFT are the count, but for the
sentinel, which is uncorrectable and has no count. Nothing is sent. That both rows have this meaning, VARIANT
deciding, is the model's own reading of the rows (log 16). -/
def Obligations.DecodeStatusUnderVariantA : Prop :=
  ∀ (s : State) (i : Instr) (raw : Byte) (f : Nat),
    i ∈ [Instr.decodeStatusA raw, Instr.decodeStatusB raw] → s.life ≠ .failed → s.variant = .variantA →
    f = raw.toNat / 2 ^ s.cfg.eccShift % 4 →
    eccDecode s.cfg .variantA raw = some
      (if f = s.cfg.eccAUncorr.toNat then .uncorrectable else .corrected (BitVec.ofNat 4 f)) ∧
    exec i s = .next { s with rsp := some (.ecc
      (if f = s.cfg.eccAUncorr.toNat then .uncorrectable else .corrected (BitVec.ofNat 4 f))) }

/-- The policy of R172: under VariantB the three bits at ECC_SHIFT give no count for 7, count 0 for 0 and 1, and
the field plus 2 for 2 to 6. Nothing is sent. That both rows have this meaning, VARIANT deciding, is the model's
own reading of the rows (log 16). -/
def Obligations.DecodeStatusUnderVariantB : Prop :=
  ∀ (s : State) (i : Instr) (raw : Byte) (f : Nat),
    i ∈ [Instr.decodeStatusA raw, Instr.decodeStatusB raw] → s.life ≠ .failed → s.variant = .variantB →
    f = raw.toNat / 2 ^ s.cfg.eccShift % 8 →
    eccDecode s.cfg .variantB raw = some
      (if f = 7 then .uncorrectable
       else if f ≤ 1 then .corrected 0
       else .corrected (BitVec.ofNat 4 (f + 2))) ∧
    exec i s = .next { s with rsp := some (.ecc
      (if f = 7 then .uncorrectable
       else if f ≤ 1 then .corrected 0
       else .corrected (BitVec.ofNat 4 (f + 2)))) }

/-- There is no policy for Generic (R175); the model refuses to decode under it, as the spec's decision D18
says (log 18). -/
def Obligations.DecodeStatusUnderGenericIsRefused : Prop :=
  ∀ (s : State) (i : Instr) (raw : Byte),
    i ∈ [Instr.decodeStatusA raw, Instr.decodeStatusB raw] → s.life ≠ .failed → s.variant = .generic →
    eccDecode s.cfg .generic raw = none ∧ exec i s = .refused .noPolicyForGeneric

/-- R172, R174: VariantB reports 0 or 4 to 8, never 1, 2 or 3; VariantA reports 0 to 3 and never its
sentinel. -/
def Obligations.EccCountsStayInTheirRange : Prop :=
  ∀ (c : Cfg) (raw : Byte) (n : BitVec 4),
    (eccDecodeB c raw = .corrected n → n.toNat = 0 ∨ 4 ≤ n.toNat ∧ n.toNat ≤ 8) ∧
    (eccDecodeA c raw = .corrected n → n.toNat ≤ 3 ∧ n.toNat ≠ c.eccAUncorr.toNat)

/-! ## Device Identification (45) -/

/-- The lookup (45_device_identification.md) returns the row of the lowest index that matches on both bytes, and
nothing iff no row matches; in a well-formed table the manufacturer byte alone selects the variant. That both
bytes must match and the lowest index wins is the spec's decision D21. -/
def Obligations.IdLookupReturnsTheLowestMatch : Prop :=
  ∀ (table : List IdRow) (m d : Byte),
    (∀ i row, idLookup table m d = some (i, row) ↔
      table[i]? = some row ∧ row.mfr = m ∧ row.dev = d ∧
      ∀ (j : Nat) (r : IdRow), j < i → table[j]? = some r → ¬ (r.mfr = m ∧ r.dev = d)) ∧
    (idLookup table m d = none ↔ ∀ r ∈ table, ¬ (r.mfr = m ∧ r.dev = d)) ∧
    (∀ i row, idTableWf table = true → idLookup table m d = some (i, row) →
      ∀ r ∈ table, r.mfr = m → r.variant = row.variant)

/-- R182, R183: Identify of an UNATTACHED instance sends ReadId's command. If the two bytes match the table at
index k, VARIANT takes the row's variant and LIFE becomes ATTACHED, both in the same step, and the response
reports the variant, the index and the bytes; if they match no row, LIFE becomes FAILED, VARIANT stays and
the response is UnknownDevice, which is how every read ends with an empty table. No later operation writes
VARIANT or LIFE. -/
def Obligations.IdentifyAttachesOrFailsForGood : Prop :=
  (∀ (s : State) (rx : RxStream) (m d : Byte), s.life = .unattached → s.answer = .ok rx →
    received rx 2 = [m, d] →
    (∀ k row, idLookup s.cfg.idTable m d = some (k, row) →
      exec .identify s = .next { s with
        variant := row.variant, life := .attached,
        busLog := s.busLog ++ [legs (buildReadId s.cfg s.variant)],
        rsp := some (.identified row.variant k [m, d]) }) ∧
    (idLookup s.cfg.idTable m d = none →
      exec .identify s = .next { s with
        life := .failed,
        busLog := s.busLog ++ [legs (buildReadId s.cfg s.variant)],
        rsp := some (.error .unknownDevice) }) ∧
    (s.cfg.idTable = [] → idLookup s.cfg.idTable m d = none)) ∧
  (∀ (i : Instr) (s t : State), s.life ≠ .unattached → exec i s = .next t →
    t.life = s.life ∧ t.variant = s.variant)

/-- Identify outside UNATTACHED (R185, the spec's decision D19; log 19): in FAILED it is answered UnknownDevice
like every other request; in ATTACHED the model refuses it. -/
def Obligations.IdentifyIsRefusedWhenAttached : Prop :=
  ∀ s : State,
    (s.life = .failed → exec .identify s = .next { s with rsp := some (.error .unknownDevice) }) ∧
    (s.life = .attached → exec .identify s = .refused .identifyWhenAttached)

/-- A transport failure during Identify (R184, the spec's decision D20) leaves LIFE and VARIANT as they were,
makes no lookup and is returned as it is. -/
def Obligations.IdentifySurvivesATransportFailure : Prop :=
  ∀ (s : State) (e : TransportError), s.life = .unattached → s.answer = .err e →
    exec .identify s = .next { s with
      busLog := s.busLog ++ [[.tx [s.cfg.opcReadId] .one, .rx 2 .one]],
      rsp := some (.error (.transportFailure e)) }

/-! ## Errors (60) -/

/-- The five error kinds in `RSP.err` and the result bit `err != 0`, which is set exactly by an error response
(R190, R24). The numbers 1 to 5 are the spec's own assignment, its decision D14 (log 31): the source has only
names. -/
def Obligations.ErrorCodesAndResultBit : Prop :=
  (∀ e : TransportError, rspErr (.error (.transportFailure e)) = 3) ∧
  (∀ a : Nat, rspErr (.error (.addressOutOfRange a)) = 5) ∧
  rspErr (.error .invalidCommand) = 1 ∧ rspErr (.error .conflictingDirection) = 2 ∧
  rspErr (.error .unknownDevice) = 4 ∧
  (∀ r : Response, rspFailed r = true ↔ ∃ e, r = .error e)

/-- Which operation produces which field of the response (10_state.md section 1; the sum type is the spec's
decision D22). Received bytes come only with success and fill exactly the receive leg the operation built;
`uncorrectable` and `corrected` only from DecodeStatus, never a count beside an uncorrectable result, and a
count of at most 8; `variant` and `row` only from Identify, naming a row of the table and the variant now
held. -/
def Obligations.ResponseFieldsBelongToTheirOperations : Prop :=
  ∀ (i : Instr) (s t : State) (r : Response), exec i s = .next t → t.rsp = some r →
    (∀ bytes, rspRxdata r = some bytes → rspErr r = 0 ∧
      ∃ d n, build s.cfg s.mode s.variant (opOfRow i) = some (.ok d) ∧ d.rxPayload = some n ∧
        bytes.length = n) ∧
    (rspUncorrectable r ≠ none → ∃ raw, opOfRow i = .decodeStatus raw) ∧
    (rspUncorrectable r = some true → rspCorrected r = none) ∧
    (∀ n, rspCorrected r = some n → rspUncorrectable r = some false ∧ n.toNat ≤ 8) ∧
    (∀ v k, rspIdentified r = some (v, k) → i = .identify ∧ t.variant = v ∧ t.life = .attached ∧
      ∃ row, s.cfg.idTable[k]? = some row ∧ row.variant = v)

/-- Which operation can return which error: every operation in FAILED and Identify by lookup UnknownDevice, a
page-address operation AddressOutOfRange, an operation that calls `Transmit` TransportFailure, none another
(the dashes of the table in 60_exceptions.md section 1). -/
def Obligations.WhichOperationReturnsWhichError : Prop :=
  ∀ (i : Instr) (s t : State) (e : ErrorKind), exec i s = .next t → t.rsp = some (.error e) →
    (e = .unknownDevice ∧ (s.life = .failed ∨ i = .identify)) ∨
    (∃ a, e = .addressOutOfRange a ∧ pageAddress? (opOfRow i) = some a ∧ 2 ^ 24 ≤ a) ∨
    (∃ x, e = .transportFailure x ∧ s.answer = .err x ∧
      ∀ raw, opOfRow i ≠ .decodeStatus raw)

/-- R194: UnknownDevice is the only error with a lasting effect: an operation that ends FAILED without
having started so is Identify of an UNATTACHED instance, and its response is UnknownDevice. -/
def Obligations.OnlyIdentifyFailsAnInstance : Prop :=
  ∀ (i : Instr) (s t : State), exec i s = .next t → t.life = .failed → s.life ≠ .failed →
    i = .identify ∧ s.life = .unattached ∧ t.rsp = some (.error .unknownDevice)
end

