-- ==== Sys2Proof/Laws/Decode.lean ====
section
/-! SUPPORT. The small lemmas of the encodings: what each layout's operand reader accepts, what the
constraints on a configuration say. -/

namespace Sys2Proof

/-- A well-formed configuration has distinct opcodes. -/
theorem Cfg.nodup_of_wf {c : Cfg} (h : c.wf = true) : c.opcodes.Nodup := by
  simp only [Cfg.wf, Bool.and_eq_true, decide_eq_true_eq] at h
  exact h.2.2.2

/-- A well-formed configuration has an address port of at least 24 bits. -/
theorem Cfg.addrInW_of_wf {c : Cfg} (h : c.wf = true) : 24 ≤ c.addrInW := by
  simp only [Cfg.wf, Bool.and_eq_true] at h
  exact of_decide_eq_true h.2.1

theorem operandsL1_ok {op : Byte} {i j : Instr} {l : List Byte} (h : operandsL1 op i l = .ok j) :
    l = [] ∧ j = i := by
  unfold operandsL1 at h
  split at h <;> cases h
  exact ⟨rfl, rfl⟩

theorem operandsL2_ok {op : Byte} {f : Byte → Instr} {j : Instr} {l : List Byte}
    (h : operandsL2 op f l = .ok j) : ∃ reg, l = [reg] ∧ j = f reg := by
  unfold operandsL2 at h
  split at h <;> cases h
  exact ⟨_, rfl, rfl⟩

theorem operandsL3_ok {op : Byte} {f : Offset → Instr} {j : Instr} {l : List Byte}
    (h : operandsL3 op f l = .ok j) : ∃ oh ol, l = [oh, ol] ∧ j = f (Machine.unpackOffset oh ol) := by
  unfold operandsL3 at h
  split at h <;> cases h
  exact ⟨_, _, rfl, rfl⟩

theorem operandsL4A_ok {op : Byte} {f : Nat → Instr} {j : Instr} {l : List Byte}
    (h : operandsL4A op f l = .ok j) :
    ∃ a2 a1 a0, l = [a2, a1, a0] ∧ j = f (Machine.unpackAddr a2 a1 a0) := by
  unfold operandsL4A at h
  split at h <;> cases h
  exact ⟨_, _, _, rfl, rfl⟩

theorem operandsL4R_ok {op : Byte} {f : Offset → Instr} {j : Instr} {l : List Byte}
    (h : operandsL4R op f l = .ok j) :
    ∃ oh ol, l = [Config.dummyByte, oh, ol] ∧ j = f (Machine.unpackOffset oh ol) := by
  unfold operandsL4R at h
  split at h
  · split at h
    · next hd => cases h; subst hd; exact ⟨_, _, rfl, rfl⟩
    · cases h
  · cases h

theorem operandsL5R_ok {op : Byte} {f : Offset → Instr} {j : Instr} {l : List Byte}
    (h : operandsL5R op f l = .ok j) :
    ∃ oh ol, l = [Config.dummyByte, oh, ol, Config.dummyByte] ∧ j = f (Machine.unpackOffset oh ol) := by
  unfold operandsL5R at h
  split at h
  · split at h
    · next hd => cases h; obtain ⟨rfl, rfl⟩ := hd; exact ⟨_, _, rfl, rfl⟩
    · cases h
  · cases h

/-- What the inverse map accepts starts with the opcode of one of its rows, whose reader accepts the rest. -/
theorem decodeCommand_ok {c : Cfg} {l : List Byte} {i : Instr} (h : decodeCommand c l = .ok i) :
    ∃ r ∈ commandRows c, ∃ rest, l = r.opcode :: rest ∧ r.read rest = .ok i := by
  cases l with
  | nil => cases h
  | cons op rest =>
    simp only [decodeCommand] at h
    cases hf : (commandRows c).find? fun r => decide (r.opcode = op) with
    | none => rw [hf] at h; cases h
    | some r =>
      rw [hf] at h
      have ho : r.opcode = op := by simpa using List.find?_some hf
      exact ⟨r, List.mem_of_find?_eq_some hf, rest, by rw [ho], h⟩

/-- A row is well-formed when its operation is. -/
theorem wf_opOfRow (c : Cfg) (i : Instr) : (opOfRow i).wf c = i.wf c := by cases i <;> rfl

/-- The row selected for a well-formed operation is well-formed, whatever the Bus Mode and VARIANT are. -/
theorem selectRow_wf (c : Cfg) (op : Op) (mode : BusMode) (v : Variant) :
    (selectRow op mode v).wf c = op.wf c := by
  cases op <;> simp only [selectRow] <;> try rfl
  case storeCache o buf => split <;> rfl
  case readCache o len => split <;> (try split) <;> rfl
  case decodeStatus raw => cases v <;> rfl

/-- The instruction of every request that decodes is well-formed. -/
theorem decodeReq_wf {c : Cfg} {r : Req} {op : Op} (h : decodeReq c r = .ok op) (mode : BusMode)
    (v : Variant) : (selectRow op mode v).wf c = true := by
  rw [selectRow_wf]
  unfold decodeReq at h
  split at h
  · cases h
  · split at h
    · next hw => split at h <;> cases h; exact hw
    · cases h

/-- An address read from three bytes is below 2^24. -/
theorem unpackAddr_lt (a2 a1 a0 : Byte) : Machine.unpackAddr a2 a1 a0 < 2 ^ 24 := by
  have := a2.isLt
  have := a1.isLt
  have := a0.isLt
  unfold Machine.unpackAddr
  omega

end Sys2Proof
end

