-- ==== Sys2Proof/Laws/State.lean ====
section
/-! SUPPORT. One lemma for each field of State and each named change of it, so that no proof unfolds a
record update. -/

namespace Sys2Proof.Machine

variable (s : State)

@[simp] theorem respond_cfg (r : Response) : (respond r s).cfg = s.cfg := rfl
@[simp] theorem respond_life (r : Response) : (respond r s).life = s.life := rfl
@[simp] theorem respond_variant (r : Response) : (respond r s).variant = s.variant := rfl
@[simp] theorem respond_mode (r : Response) : (respond r s).mode = s.mode := rfl
@[simp] theorem respond_answer (r : Response) : (respond r s).answer = s.answer := rfl
@[simp] theorem respond_rsp (r : Response) : (respond r s).rsp = some r := rfl
@[simp] theorem respond_pending (r : Response) : (respond r s).pending = s.pending := rfl
@[simp] theorem respond_busLog (r : Response) : (respond r s).busLog = s.busLog := rfl

@[simp] theorem logCall_cfg (l : List Leg) : (logCall l s).cfg = s.cfg := rfl
@[simp] theorem logCall_life (l : List Leg) : (logCall l s).life = s.life := rfl
@[simp] theorem logCall_variant (l : List Leg) : (logCall l s).variant = s.variant := rfl
@[simp] theorem logCall_mode (l : List Leg) : (logCall l s).mode = s.mode := rfl
@[simp] theorem logCall_answer (l : List Leg) : (logCall l s).answer = s.answer := rfl
@[simp] theorem logCall_rsp (l : List Leg) : (logCall l s).rsp = s.rsp := rfl
@[simp] theorem logCall_pending (l : List Leg) : (logCall l s).pending = s.pending := rfl
@[simp] theorem logCall_busLog (l : List Leg) : (logCall l s).busLog = s.busLog ++ [l] := rfl

@[simp] theorem attach_cfg (v : Variant) : (attach v s).cfg = s.cfg := rfl
@[simp] theorem attach_life (v : Variant) : (attach v s).life = .attached := rfl
@[simp] theorem attach_variant (v : Variant) : (attach v s).variant = v := rfl
@[simp] theorem attach_mode (v : Variant) : (attach v s).mode = s.mode := rfl
@[simp] theorem attach_answer (v : Variant) : (attach v s).answer = s.answer := rfl
@[simp] theorem attach_rsp (v : Variant) : (attach v s).rsp = s.rsp := rfl
@[simp] theorem attach_pending (v : Variant) : (attach v s).pending = s.pending := rfl
@[simp] theorem attach_busLog (v : Variant) : (attach v s).busLog = s.busLog := rfl

@[simp] theorem markFailed_cfg : (markFailed s).cfg = s.cfg := rfl
@[simp] theorem markFailed_life : (markFailed s).life = .failed := rfl
@[simp] theorem markFailed_variant : (markFailed s).variant = s.variant := rfl
@[simp] theorem markFailed_mode : (markFailed s).mode = s.mode := rfl
@[simp] theorem markFailed_answer : (markFailed s).answer = s.answer := rfl
@[simp] theorem markFailed_rsp : (markFailed s).rsp = s.rsp := rfl
@[simp] theorem markFailed_pending : (markFailed s).pending = s.pending := rfl
@[simp] theorem markFailed_busLog : (markFailed s).busLog = s.busLog := rfl

@[simp] theorem accept_cfg (p : Presented) (rest : List Input) : (accept p rest s).cfg = s.cfg := rfl
@[simp] theorem accept_life (p : Presented) (rest : List Input) : (accept p rest s).life = s.life := rfl
@[simp] theorem accept_variant (p : Presented) (rest : List Input) : (accept p rest s).variant = s.variant := rfl
@[simp] theorem accept_mode (p : Presented) (rest : List Input) : (accept p rest s).mode = p.mode := rfl
@[simp] theorem accept_answer (p : Presented) (rest : List Input) : (accept p rest s).answer = p.answer := rfl
@[simp] theorem accept_rsp (p : Presented) (rest : List Input) : (accept p rest s).rsp = none := rfl
@[simp] theorem accept_pending (p : Presented) (rest : List Input) : (accept p rest s).pending = rest := rfl
@[simp] theorem accept_busLog (p : Presented) (rest : List Input) : (accept p rest s).busLog = s.busLog := rfl

@[simp] theorem hardwareReset_cfg : (hardwareReset s).cfg = s.cfg := rfl
@[simp] theorem hardwareReset_life : (hardwareReset s).life = .unattached := rfl
@[simp] theorem hardwareReset_variant : (hardwareReset s).variant = .generic := rfl
@[simp] theorem hardwareReset_mode : (hardwareReset s).mode = s.mode := rfl
@[simp] theorem hardwareReset_answer : (hardwareReset s).answer = s.answer := rfl
@[simp] theorem hardwareReset_rsp : (hardwareReset s).rsp = none := rfl
@[simp] theorem hardwareReset_pending : (hardwareReset s).pending = s.pending := rfl
@[simp] theorem hardwareReset_busLog : (hardwareReset s).busLog = s.busLog := rfl

end Sys2Proof.Machine
end

