-- ==== Sys2Proof/Laws/Ops.lean ====
section
/-! SUPPORT. What each shared operation can do, said once: delivery, the gate, the transport call, the
dispatcher, a builder operation. -/

namespace Sys2Proof.Machine

@[simp] theorem deliver_eq (r : Response) (s : State) : deliver r s = .next (respond r s) := rfl

@[simp] theorem raise_eq (e : ErrorKind) (s : State) : raise e s = .next (respond (.error e) s) := rfl

theorem gate_failed {s : State} (h : s.life = .failed) (k : Result) :
    gate s k = .next (respond (.error .unknownDevice) s) := by
  simp [gate, h]

theorem gate_open {s : State} (h : s.life ≠ .failed) (k : Result) : gate s k = k := by
  simp [gate, h]

/-! ## The transport -/

@[simp] theorem received_length (rx : RxStream) (n : Nat) : (received rx n).length = n := by
  simp [received]
  omega

/-- A transport that delivers exactly the bytes asked for delivers them unchanged. -/
theorem received_exact (bytes : List Byte) (idle : Byte) :
    received ⟨bytes, idle⟩ bytes.length = bytes := by
  simp [received]

@[simp] theorem rxLength_append (l₁ l₂ : List Leg) : rxLength (l₁ ++ l₂) = rxLength l₁ + rxLength l₂ := by
  induction l₁ with
  | nil => simp [rxLength]
  | cons leg l ih =>
    cases leg with
    | tx data w => simp [rxLength, ih]
    | rx n w => simp [rxLength, ih, Nat.add_assoc]

@[simp] theorem rxLength_txLeg (d : Descriptor) : rxLength (txLeg d) = 0 := by
  unfold txLeg; split <;> rfl

@[simp] theorem rxLength_rxLeg (d : Descriptor) : rxLength (rxLeg d) = d.rxPayload.getD 0 := by
  unfold rxLeg; split <;> simp_all [rxLength]

/-- The receive leg of a descriptor asks for its receive payload's length. -/
@[simp] theorem rxLength_legs (d : Descriptor) : rxLength (legs d) = d.rxPayload.getD 0 := by
  simp [legs, rxLength]

theorem transmit_ok {s : State} {rx : RxStream} (h : s.answer = .ok rx) (l : List Leg) :
    transmit l s = .ok (received rx (rxLength l)) (logCall l s) := by
  simp [transmit, h]

theorem transmit_err {s : State} {e : TransportError} (h : s.answer = .err e) (l : List Leg) :
    transmit l s = .raised (.transportFailure e) (logCall l s) := by
  simp [transmit, h]

theorem transmit_never {s : State} (h : s.answer = .never) (l : List Leg) : transmit l s = .stuck := by
  simp [transmit, h]

/-! ## The dispatcher -/

/-- A descriptor with a command and at most one payload passes both checks. -/
theorem dispatch_of_valid {d : Descriptor} (hc : d.commandBytes.toList ≠ [])
    (hp : d.txPayload = none ∨ d.rxPayload = none) (s : State) : dispatch d s = transmit (legs d) s := by
  rcases hp with hp | hp <;> simp [dispatch, hc, hp]

/-- Everything a dispatch can do: it rejects the descriptor with nothing sent, or makes one call with all
legs, which succeeds, fails or does not return. -/
theorem dispatch_cases (d : Descriptor) (s : State) :
    (∃ e, dispatch d s = .raised e s ∧ (e = .invalidCommand ∨ e = .conflictingDirection)) ∨
    (∃ rx, s.answer = .ok rx ∧
      dispatch d s = .ok (received rx (d.rxPayload.getD 0)) (logCall (legs d) s)) ∨
    (∃ e, s.answer = .err e ∧ dispatch d s = .raised (.transportFailure e) (logCall (legs d) s)) ∨
    (s.answer = .never ∧ dispatch d s = .stuck) := by
  unfold dispatch
  split
  · exact .inl ⟨_, rfl, .inl rfl⟩
  · split
    · exact .inl ⟨_, rfl, .inr rfl⟩
    · cases h : s.answer with
      | ok rx => exact .inr (.inl ⟨rx, rfl, by simp [transmit_ok h]⟩)
      | err e => exact .inr (.inr (.inl ⟨e, rfl, transmit_err h _⟩))
      | never => exact .inr (.inr (.inr ⟨rfl, transmit_never h _⟩))

/-! ## A builder operation -/

theorem execBuilt_failed {s : State} (h : s.life = .failed) (b : Except ErrorKind Descriptor)
    (r : List Byte → Response) : execBuilt b r s = .next (respond (.error .unknownDevice) s) :=
  gate_failed h _

theorem execBuilt_error {s : State} (h : s.life ≠ .failed) (e : ErrorKind) (r : List Byte → Response) :
    execBuilt (.error e) r s = .next (respond (.error e) s) := by
  simp [execBuilt, gate_open h]

theorem execBuilt_ok {s : State} (h : s.life ≠ .failed) (d : Descriptor) (r : List Byte → Response) :
    execBuilt (.ok d) r s = (dispatch d s).finish fun rx s' => deliver (r rx) s' := by
  simp [execBuilt, gate_open h]

/-- If a builder operation answers, it changed nothing but the response, or the response and the bus log by
the one call of its descriptor. -/
theorem execBuilt_next {b : Except ErrorKind Descriptor} {r : List Byte → Response} {s t : State}
    (h : execBuilt b r s = .next t) :
    (∃ rsp, t = respond rsp s) ∨ ∃ d rsp, b = .ok d ∧ t = respond rsp (logCall (legs d) s) := by
  by_cases hf : s.life = .failed
  · rw [execBuilt_failed hf] at h
    cases h
    exact .inl ⟨_, rfl⟩
  · cases b with
    | error e =>
      rw [execBuilt_error hf] at h
      cases h
      exact .inl ⟨_, rfl⟩
    | ok d =>
      rw [execBuilt_ok hf] at h
      obtain ⟨e, hd, -⟩ | ⟨rx, -, hd⟩ | ⟨e, -, hd⟩ | ⟨-, hd⟩ := dispatch_cases d s
      · rw [hd] at h; cases h; exact .inl ⟨_, rfl⟩
      · rw [hd] at h; cases h; exact .inr ⟨d, _, rfl, rfl⟩
      · rw [hd] at h; cases h; exact .inr ⟨d, _, rfl, rfl⟩
      · rw [hd] at h; cases h

end Sys2Proof.Machine
end

