-- ==== Sys2Proof/Laws/Exec.lean ====
section
/-! SUPPORT. What the meanings that are not builder operations can do, and the operands' small lemmas. -/

namespace Sys2Proof.Machine

/-- Everything DecodeStatus can do: it never reaches the bus and changes only the response. -/
theorem decodeStatus_next {raw : Byte} {s t : State} (h : decodeStatus raw s = .next t) :
    (s.life = .failed ∧ t = respond (.error .unknownDevice) s) ∨
    ∃ r, eccDecode s.cfg s.variant raw = some r ∧ t = respond (.ecc r) s := by
  by_cases hf : s.life = .failed
  · rw [decodeStatus, gate_failed hf] at h
    cases h
    exact .inl ⟨hf, rfl⟩
  · rw [decodeStatus, gate_open hf] at h
    cases he : eccDecode s.cfg s.variant raw with
    | none => rw [he] at h; cases h
    | some r => rw [he] at h; cases h; exact .inr ⟨r, rfl, rfl⟩

/-- A row that the lookup finds is a row of the table. -/
theorem idLookupFrom_mem {i j : Nat} {table : List IdRow} {m d : Byte} {row : IdRow}
    (h : idLookupFrom i table m d = some (j, row)) : row ∈ table := by
  induction table generalizing i with
  | nil => cases h
  | cons r rows ih =>
    unfold idLookupFrom at h
    split at h
    · cases h; exact List.mem_cons_self
    · exact List.mem_cons_of_mem _ (ih h)

/-- Everything the end of Identify can do (R182, R183). -/
theorem concludeIdentify_cases (id : List Byte) (s : State) :
    (∃ i row, row ∈ s.cfg.idTable ∧
      concludeIdentify id s = .next (respond (.identified row.variant i id) (attach row.variant s))) ∨
    concludeIdentify id s = .next (respond (.error .unknownDevice) (markFailed s)) := by
  unfold concludeIdentify
  split
  · next i row h => exact .inl ⟨i, row, idLookupFrom_mem h, rfl⟩
  · exact .inr rfl

/-- If Identify answers, then: the gate closed it; or it was UNATTACHED and its one call failed, or matched a
row, or matched none. -/
theorem execIdentify_next {s t : State} (h : execIdentify s = .next t) :
    (s.life = .failed ∧ t = respond (.error .unknownDevice) s) ∨
    (s.life = .unattached ∧
      ((∃ e, t = respond (.error (.transportFailure e))
          (logCall (legs (buildReadId s.cfg s.variant)) s)) ∨
       (∃ i row id, row ∈ s.cfg.idTable ∧ t = respond (.identified row.variant i id)
          (attach row.variant (logCall (legs (buildReadId s.cfg s.variant)) s))) ∨
       t = respond (.error .unknownDevice)
          (markFailed (logCall (legs (buildReadId s.cfg s.variant)) s)))) := by
  by_cases hf : s.life = .failed
  · rw [execIdentify, gate_failed hf] at h
    cases h
    exact .inl ⟨hf, rfl⟩
  · rw [execIdentify, gate_open hf] at h
    split at h
    · cases h
    · next ha =>
      refine .inr ⟨by cases hl : s.life <;> simp_all, ?_⟩
      have hv : dispatch (buildReadId s.cfg s.variant) s
          = transmit (legs (buildReadId s.cfg s.variant)) s :=
        dispatch_of_valid (by simp [buildReadId, layoutL1, CommandBytes.toList]) (.inl rfl) s
      rw [hv] at h
      cases hans : s.answer with
      | ok rx =>
        rw [transmit_ok hans] at h
        obtain ⟨i, row, hm, hc⟩ | hc := concludeIdentify_cases
          (received rx (rxLength (legs (buildReadId s.cfg s.variant))))
          (logCall (legs (buildReadId s.cfg s.variant)) s)
        · simp only [Attempt.finish, hc] at h
          cases h
          exact .inr (.inl ⟨i, row, _, hm, rfl⟩)
        · simp only [Attempt.finish, hc] at h
          cases h
          exact .inr (.inr rfl)
      | err e =>
        rw [transmit_err hans] at h
        cases h
        exact .inl ⟨e, rfl⟩
      | never =>
        rw [transmit_never hans] at h
        cases h

/-- What a row's operation answers on success with the bytes received: data for the rows with a receive leg. -/
def rowResponse : Instr → List Byte → Response
  | .readRegister _ | .readId | .readCacheX1 _ _ | .readCacheX2 _ _ | .readCacheX4 _ _ => .data
  | .reset | .writeRegister _ _ | .writeEnable | .writeDisable | .writePage _ | .loadPage _ | .blockErase _
  | .storeCacheX1 _ _ | .storeCacheX4 _ _ | .decodeStatusA _ | .decodeStatusB _ | .identify => noData

/-- The meaning of every builder row is one builder operation over `Build` of its operation. -/
theorem exec_builder {i : Instr} {s : State} {b : Except ErrorKind Descriptor} (hi : i ≠ .identify)
    (hb : build s.cfg s.mode s.variant (opOfRow i) = some b) :
    exec i s = execBuilt b (rowResponse i) s := by
  cases i <;> simp only [build, opOfRow, Option.some.injEq, reduceCtorEq, ne_eq, not_true_eq_false] at hb hi
  all_goals subst hb; rfl

/-- The rows that are no builder rows: DecodeStatus, whose two rows have one meaning, and Identify. -/
theorem exec_other {i : Instr} {s : State} (hb : build s.cfg s.mode s.variant (opOfRow i) = none) :
    ∃ raw, opOfRow i = .decodeStatus raw ∧ exec i s = decodeStatus raw s := by
  cases i <;> simp only [build, opOfRow, reduceCtorEq] at hb
  case decodeStatusA raw => exact ⟨raw, rfl, rfl⟩
  case decodeStatusB raw => exact ⟨raw, rfl, rfl⟩

/-- If a row other than Identify answers, it changed nothing but the response, or the response and the bus
log by the one call of its operation's descriptor. -/
theorem exec_next {i : Instr} {s t : State} (h : exec i s = .next t) (hi : i ≠ .identify) :
    (∃ rsp, t = respond rsp s) ∨
    ∃ d rsp, build s.cfg s.mode s.variant (opOfRow i) = some (.ok d) ∧
      t = respond rsp (logCall (legs d) s) := by
  cases hb : build s.cfg s.mode s.variant (opOfRow i) with
  | none =>
    obtain ⟨raw, -, he⟩ := exec_other hb
    rw [he] at h
    obtain ⟨-, ht⟩ | ⟨r, -, ht⟩ := decodeStatus_next h
    · exact .inl ⟨_, ht⟩
    · exact .inl ⟨_, ht⟩
  | some b =>
    rw [exec_builder hi hb] at h
    obtain ht | ⟨d, rsp, rfl, ht⟩ := execBuilt_next h
    · exact .inl ht
    · exact .inr ⟨d, rsp, rfl, ht⟩

/-- `ID_LEN` is 2 for every variant (R115). -/
@[simp] theorem idLen_eq (v : Variant) : idLen v = 2 := by cases v <;> rfl

/-- The two bytes of an ID response. -/
@[simp] theorem idBytes_pair (m d : Byte) : idBytes [m, d] = (m, d) := rfl

@[simp] theorem byteAt_toNat (v lo : Nat) : (byteAt v lo).toNat = v >>> lo % 256 := by
  simp [byteAt]

end Sys2Proof.Machine
end

