-- ==== Sys2Proof/Laws/PerInstr.lean ====
section
/-! SUPPORT. A statement for every row of the operation table: the length of its command (R80, R83). -/

namespace Sys2Proof.Laws.CommandLength

/-- The command of a row, where it has one, has its layout's length, which is 1 to CMD_MAX (R83). -/
def Statement (i : Instr) : Prop :=
  ∀ (c : Cfg) (d : Descriptor), encode c i = some d →
    d.commandBytes.toList.length = layoutLength i ∧ 1 ≤ layoutLength i ∧ layoutLength i ≤ Config.cmdMax

/-- A page-address row's command, where it has one, has four bytes. -/
theorem ofPageRow_length {op : Byte} {a : Nat} {d : Descriptor} (h : Descriptor.ofPageRow op a = some d) :
    d.commandBytes.toList.length = 4 := by
  unfold Descriptor.ofPageRow at h
  split at h
  · cases h; rfl
  · cases h

/-- The bound on the layout of a row that has a command. -/
theorem of_length {i : Instr} (hb : 1 ≤ layoutLength i ∧ layoutLength i ≤ Config.cmdMax)
    (hl : ∀ c d, encode c i = some d → d.commandBytes.toList.length = layoutLength i) : Statement i :=
  fun c d h => ⟨hl c d h, hb⟩

theorem reset : Statement .reset := of_length (by decide) fun _ _ h => by cases h; rfl
theorem readRegister (reg : Byte) : Statement (.readRegister reg) :=
  of_length ⟨by simp [layoutLength], by simp [layoutLength, Config.cmdMax]⟩ fun _ _ h => by cases h; rfl
theorem writeRegister (reg value : Byte) : Statement (.writeRegister reg value) :=
  of_length ⟨by simp [layoutLength], by simp [layoutLength, Config.cmdMax]⟩ fun _ _ h => by cases h; rfl
theorem writeEnable : Statement .writeEnable := of_length (by decide) fun _ _ h => by cases h; rfl
theorem writeDisable : Statement .writeDisable := of_length (by decide) fun _ _ h => by cases h; rfl
theorem readId : Statement .readId := of_length (by decide) fun _ _ h => by cases h; rfl
theorem writePage (a : Nat) : Statement (.writePage a) :=
  of_length ⟨by simp [layoutLength], by simp [layoutLength, Config.cmdMax]⟩ fun _ _ h => ofPageRow_length h
theorem loadPage (a : Nat) : Statement (.loadPage a) :=
  of_length ⟨by simp [layoutLength], by simp [layoutLength, Config.cmdMax]⟩ fun _ _ h => ofPageRow_length h
theorem blockErase (a : Nat) : Statement (.blockErase a) :=
  of_length ⟨by simp [layoutLength], by simp [layoutLength, Config.cmdMax]⟩ fun _ _ h => ofPageRow_length h
theorem storeCacheX1 (o : Offset) (buf : List Byte) : Statement (.storeCacheX1 o buf) :=
  of_length ⟨by simp [layoutLength], by simp [layoutLength, Config.cmdMax]⟩ fun _ _ h => by cases h; rfl
theorem storeCacheX4 (o : Offset) (buf : List Byte) : Statement (.storeCacheX4 o buf) :=
  of_length ⟨by simp [layoutLength], by simp [layoutLength, Config.cmdMax]⟩ fun _ _ h => by cases h; rfl
theorem readCacheX1 (o : Offset) (len : Nat) : Statement (.readCacheX1 o len) :=
  of_length ⟨by simp [layoutLength], by simp [layoutLength, Config.cmdMax]⟩ fun _ _ h => by cases h; rfl
theorem readCacheX2 (o : Offset) (len : Nat) : Statement (.readCacheX2 o len) :=
  of_length ⟨by simp [layoutLength], by simp [layoutLength, Config.cmdMax]⟩ fun _ _ h => by cases h; rfl
theorem readCacheX4 (o : Offset) (len : Nat) : Statement (.readCacheX4 o len) :=
  of_length ⟨by simp [layoutLength], by simp [layoutLength, Config.cmdMax]⟩ fun _ _ h => by cases h; rfl
theorem decodeStatusA (raw : Byte) : Statement (.decodeStatusA raw) := fun _ _ h => by cases h
theorem decodeStatusB (raw : Byte) : Statement (.decodeStatusB raw) := fun _ _ h => by cases h
theorem identify : Statement .identify := of_length (by decide) fun _ _ h => by cases h; rfl

end Sys2Proof.Laws.CommandLength
end

