-- ==== Sys2Proof/Laws/Step.lean ====
section
/-! SUPPORT. What a step can do, said once, and runs one step at a time. -/

namespace Sys2Proof.Machine

/-- If a step answers, then nothing was pending; or a hardware reset was; or a request that decodes, and its
row answered. -/
theorem step_next {s t : State} (h : step s = .next t) :
    (s.pending = [] ∧ t = s) ∨
    (∃ rest, s.pending = .hardwareReset :: rest ∧ t = hardwareReset { s with pending := rest }) ∨
    (∃ p rest op, s.pending = .request p :: rest ∧ decodeReq s.cfg p.req = .ok op ∧
      exec (selectRow op p.mode s.variant) (accept p rest s) = .next t) := by
  unfold step fetch at h
  cases hw : s.cfg.wf with
  | false => simp [hw] at h
  | true =>
    simp only [hw, if_true] at h
    cases hp : s.pending with
    | nil =>
      simp only [hp, Host.Outcome.next.injEq] at h
      exact .inl ⟨rfl, h.symm⟩
    | cons x rest =>
      cases x with
      | hardwareReset =>
        simp only [hp, Host.Outcome.next.injEq] at h
        exact .inr (.inl ⟨rest, rfl, h.symm⟩)
      | request p =>
        simp only [hp, fetchRequest] at h
        cases hd : decodeReq s.cfg p.req with
        | error e => simp [hd] at h
        | ok op => simp only [hd] at h; exact .inr (.inr ⟨p, rest, op, rfl, hd, h⟩)

/-- A run that answers takes a step that answers and goes on from there. -/
theorem run_succ_next {n : Nat} {s t : State} (h : Sys2Proof.core.run (n + 1) s = .next t) :
    ∃ u, step s = .next u ∧ Sys2Proof.core.run n u = .next t := by
  have he : Sys2Proof.core.step s = step s := rfl
  simp only [Host.Core.run, he] at h
  cases hs : step s with
  | next u => rw [hs] at h; exact ⟨u, rfl, h⟩
  | fault r => rw [hs] at h; cases h
  | refused r => rw [hs] at h; cases h

end Sys2Proof.Machine
end

