-- ==== Sys2Proof/Tests/Slice0.lean ====
section
/-! SUPPORT. Tests: the refused ill-formed terms, command words written out from spec/30_encoding.md, the
vectors of spec/95_test_vectors.md (their identifiers stand in the names), and a witness for the hypotheses of
every statement that has some. -/

namespace Sys2Proof.Tests

open Sys2Proof.Machine

/-! ## A small bench -/

/-- The table IDT of spec/95_test_vectors.md, table G, with geometry that nothing reads. -/
def idt : List IdRow :=
  [⟨0x2C, 0x12, .variantA, ⟨0, 0, 0, 0, 0, 0, []⟩⟩, ⟨0xC8, 0xF1, .variantB, ⟨0, 0, 0, 0, 0, 0, []⟩⟩]

/-- An instance with the defaults and IDT, under a Bus Mode, with the transport's answer in force. -/
def bench (life : Life) (variant : Variant) (mode : BusMode) (answer : TransmitAnswer) : State :=
  { State.reset with
    cfg := { Cfg.default with idTable := idt }, life := life, variant := variant, mode := mode, answer := answer }

/-- A transport that receives the given bytes. -/
def gives (bytes : List Byte) : TransmitAnswer := .ok ⟨bytes, 0x00⟩

/-- A transport that fails. -/
def fails : TransmitAnswer := .err ⟨7⟩

/-- UNATTACHED and Generic, single-lane, with a transport that receives the given bytes. -/
def fresh (bytes : List Byte) : State := bench .unattached .generic .single (gives bytes)

/-- ATTACHED with a variant, single-lane, with a transport that receives nothing. -/
def attachedTo (v : Variant) : State := bench .attached v .single (gives [])

/-- FAILED, single-lane. -/
def dead : State := bench .failed .generic .single (gives [])

/-- `s` with inputs to come. -/
def queue (inputs : List Input) (s : State) : State := { s with pending := inputs }

/-- The request of an operation under the single-lane mode and a transport that answers as given. -/
def ask (op : Op) (answer : TransmitAnswer) : Input := .request ⟨encodeReq op, .single, answer⟩

/-- The response and the bus log of a next state. -/
def seen : Result → Option (Option Response × List (List Leg))
  | .next t => some (t.rsp, t.busLog)
  | .fault _ => none
  | .refused _ => none

/-- LIFE and VARIANT of a next state. -/
def lifecycle : Result → Option (Life × Variant)
  | .next t => some (t.life, t.variant)
  | .fault _ => none
  | .refused _ => none

/-- The fault or refusal of a stop. -/
def stopOf : Result → Option (Fault ⊕ Refusal)
  | .next _ => none
  | .fault f => some (.inl f)
  | .refused r => some (.inr r)

/-- What is seen of an outcome comes from a next state. -/
theorem next_of_seen {r : Result} (h : (seen r).isSome = true) : ∃ t, r = .next t := by
  cases r with
  | next t => exact ⟨t, rfl⟩
  | fault f => cases h
  | refused f => cases h

/-! ## WellFormed refuses ill-formed terms -/

theorem test_wf_default : Cfg.default.wf = true := by decide
theorem test_wf_equal_opcodes : ({ Cfg.default with opcReset := 0x06 } : Cfg).wf = false := by decide
theorem test_wf_ecc_shift : ({ Cfg.default with eccShift := 6 } : Cfg).wf = false := by decide
theorem test_wf_sentinel : ({ Cfg.default with eccAUncorr := 0 } : Cfg).wf = false := by decide
theorem test_wf_address_port : ({ Cfg.default with addrInW := 23 } : Cfg).wf = false := by decide
theorem test_wf_address_port_min : ({ Cfg.default with addrInW := 24 } : Cfg).wf = true := by decide
theorem test_wf_id_table : idTableWf idt = true := by decide
theorem test_wf_id_table_same_key :
    idTableWf (idt ++ [⟨0x2C, 0x12, .variantA, ⟨0, 0, 0, 0, 0, 0, []⟩⟩]) = false := by decide
theorem test_wf_id_table_two_variants :
    idTableWf (idt ++ [⟨0x2C, 0x13, .variantB, ⟨0, 0, 0, 0, 0, 0, []⟩⟩]) = false := by decide
theorem test_wf_op_address : (Op.writePage (2 ^ 32)).wf Cfg.default = false := by decide
theorem test_wf_op_length : (Op.readCache 0 65536).wf Cfg.default = false := by decide
theorem test_wf_op_buffer :
    (Op.storeCache 0 [1, 2]).wf { Cfg.default with lenW := 1 } = false := by decide
theorem test_wf_instr_address : (Instr.loadPage (2 ^ 32)).wf Cfg.default = false := by decide
theorem test_wf_instr_length : (Instr.readCacheX4 0 65536).wf Cfg.default = false := by decide
theorem test_wf_instr_buffer :
    (Instr.storeCacheX4 0 [1, 2]).wf { Cfg.default with lenW := 1 } = false := by decide
theorem test_encodable_address : (Instr.blockErase (2 ^ 24)).encodable = false := by decide
theorem test_request_reserved :
    decodeReq Cfg.default (Req.blank 13) = .error (.reservedSelector 13) := by decide
theorem test_request_wide_address :
    decodeReq Cfg.default { Req.blank 5 with addr := 2 ^ 32 } = .error .operandTooWide := by decide
theorem test_request_buffer_length :
    decodeReq Cfg.default { Req.blank 8 with buf := [0xAA], len := 2 } = .error .bufferLengthMismatch := by
  decide

/-! ## Command words, byte by byte from the layouts and opcodes of R80 and R88 -/

theorem test_word_reset : decodeTableWord 8 0b11111111 = some .reset := by decide
theorem test_word_readRegister :
    decodeTableWord 16 0b0000111111000000 = some (.readRegister 0xC0) := by decide
theorem test_word_writeRegister :
    decodeTableWord 16 0b0001111110100000 = some (.writeRegister 0xA0 0) := by decide
theorem test_word_writeEnable : decodeTableWord 8 0b00000110 = some .writeEnable := by decide
theorem test_word_writeDisable : decodeTableWord 8 0b00000100 = some .writeDisable := by decide
theorem test_word_readId : decodeTableWord 8 0b10011111 = some .readId := by decide
theorem test_word_writePage :
    decodeTableWord 32 0b00010000000000010010001101000101 = some (.writePage 0x012345) := by decide
theorem test_word_loadPage :
    decodeTableWord 32 0b00010011100000000000000000000000 = some (.loadPage 0x800000) := by decide
theorem test_word_blockErase :
    decodeTableWord 32 0b11011000000000010010001101000101 = some (.blockErase 0x012345) := by decide
theorem test_word_storeCacheX1 :
    decodeTableWord 24 0b000000100001001000110100 = some (.storeCacheX1 0x1234 []) := by decide
theorem test_word_storeCacheX4 :
    decodeTableWord 24 0b001100100001001000110100 = some (.storeCacheX4 0x1234 []) := by decide
theorem test_word_readCacheX1 :
    decodeTableWord 32 0b00000011000000000001001000110100 = some (.readCacheX1 0x1234 0) := by decide
theorem test_word_readCacheX2 :
    decodeTableWord 40 0b0011101100000000000100100011010000000000 = some (.readCacheX2 0x1234 0) := by decide
theorem test_word_readCacheX4 :
    decodeTableWord 40 0b0110101100000000000100100011010000000000 = some (.readCacheX4 0x1234 0) := by decide
theorem test_word_dummy_not_zero : decodeTableWord 40 0x6B00123401 = none := by decide
theorem test_word_wrong_length : decodeTableWord 16 0xFF00 = none := by decide

/-- The two operations that a command word does not give are given by their selectors (R100). -/
theorem test_selector_decodeStatus :
    decodeReq Cfg.default { Req.blank 11 with raw := 0x30 } = .ok (.decodeStatus 0x30) := by decide
theorem test_selector_identify : decodeReq Cfg.default (Req.blank 12) = .ok .identify := by decide
theorem test_row_decodeStatusB :
    selectRow (.decodeStatus 0x30) .single .variantB = .decodeStatusB 0x30 := by decide

/-- Vector B8 as a descriptor, read back; and the same command with a receive leg, which is refused. -/
theorem test_decode_writeRegister :
    decode Cfg.default ⟨.b2 0x1F 0xA0, some [0x5A], none, .one, .one⟩ = .ok (.writeRegister 0xA0 0x5A) := by
  decide
theorem test_decode_wrong_leg :
    decode Cfg.default ⟨.b2 0x1F 0xA0, none, some 1, .one, .one⟩ = .error .dataLegMismatch := by decide

/-! ## The vectors: tables A and B -/

theorem test_A2 : seen (exec (.writePage 0x012345) (fresh [])) =
    some (some .done, [[.tx [0x10, 0x01, 0x23, 0x45] .one]]) := by decide
theorem test_A4 : seen (exec (.writePage 0x1000000) (fresh [])) =
    some (some (.error (.addressOutOfRange 0x1000000)), []) := by decide
theorem test_A7 : seen (exec (.loadPage 0x800000) (fresh [])) =
    some (some .done, [[.tx [0x13, 0x80, 0x00, 0x00] .one]]) := by decide
theorem test_A10 : seen (exec (.blockErase 0x000040) (fresh [])) =
    some (some .done, [[.tx [0xD8, 0x00, 0x00, 0x40] .one]]) := by decide
theorem test_A11 : seen (exec (.blockErase 0x01000000) (fresh [])) =
    some (some (.error (.addressOutOfRange 0x01000000)), []) := by decide
theorem test_B1 : seen (exec .reset (fresh [])) = some (some .done, [[.tx [0xFF] .one]]) := by decide
theorem test_B2 : seen (exec .writeEnable (fresh [])) = some (some .done, [[.tx [0x06] .one]]) := by decide
theorem test_B3 : seen (exec .writeDisable (fresh [])) = some (some .done, [[.tx [0x04] .one]]) := by decide
theorem test_B4 : seen (exec (.readRegister 0xC0) (fresh [0x24])) =
    some (some (.data [0x24]), [[.tx [0x0F, 0xC0] .one, .rx 1 .one]]) := by decide
theorem test_B13 : seen (exec (.readRegister 0xC0)
      (bench .unattached .generic ⟨true, true, true, true⟩ (gives [0x24]))) =
    some (some (.data [0x24]), [[.tx [0x0F, 0xC0] .one, .rx 1 .one]]) := by decide
theorem test_B9 : seen (exec (.writeRegister 0xB0 0x11) (fresh [])) =
    some (some .done, [[.tx [0x1F, 0xB0] .one, .tx [0x11] .one]]) := by decide
theorem test_B11 : seen (exec .readId (fresh [0xC8, 0xF1])) =
    some (some (.data [0xC8, 0xF1]), [[.tx [0x9F] .one, .rx 2 .one]]) := by decide

/-! ## Table C -/

theorem test_C3 : seen (exec (.storeCacheX1 0x0000 [0xAA, 0xBB])
      (bench .attached .variantB ⟨true, false, false, false⟩ (gives []))) =
    some (some .done, [[.tx [0x02, 0x00, 0x00] .one, .tx [0xAA, 0xBB] .one]]) := by decide
theorem test_C6 : seen (exec (.storeCacheX1 0x0800 []) (attachedTo .variantB)) =
    some (some .done, [[.tx [0x02, 0x08, 0x00] .one, .tx [] .one]]) := by decide
theorem test_C9 : seen (exec (.storeCacheX4 0xFFFF [0x01])
      (bench .attached .variantB ⟨false, true, false, false⟩ (gives []))) =
    some (some .done, [[.tx [0x32, 0xFF, 0xFF] .one, .tx [0x01] .four]]) := by decide
theorem test_C19 : seen (exec (.readCacheX1 0x1234 1)
      (bench .attached .variantB .single (gives [0x5A]))) =
    some (some (.data [0x5A]), [[.tx [0x03, 0x00, 0x12, 0x34] .one, .rx 1 .one]]) := by decide
theorem test_C14 : seen (exec (.readCacheX1 0x0000 1)
      (bench .attached .variantB ⟨true, true, false, false⟩ (gives [0x5A]))) =
    some (some (.data [0x5A]), [[.tx [0x03, 0x00, 0x00, 0x00] .one, .rx 1 .one]]) := by decide
theorem test_C20 : seen (exec (.readCacheX2 0xFFFF 0)
      (bench .attached .variantB ⟨false, false, true, false⟩ (gives []))) =
    some (some (.data []), [[.tx [0x3B, 0x00, 0xFF, 0xFF, 0x00] .one, .rx 0 .two]]) := by decide
theorem test_C13 : seen (exec (.readCacheX4 0x0000 2)
      (bench .attached .variantB ⟨false, false, true, true⟩ (gives [0xDE, 0xAD]))) =
    some (some (.data [0xDE, 0xAD]), [[.tx [0x6B, 0x00, 0x00, 0x00, 0x00] .one, .rx 2 .four]]) := by decide

/-! ## Tables D, E, F, G -/

theorem test_D3 : dispatch ⟨.b0, some [0x00], some 1, .one, .one⟩ (fresh []) =
    .raised .invalidCommand (fresh []) := rfl
theorem test_D4 : dispatch ⟨.b3 0x02 0x00 0x00, some [], some 0, .one, .one⟩ (fresh []) =
    .raised .conflictingDirection (fresh []) := rfl
theorem test_D9 : seen (exec (.blockErase 0x012345) (bench .attached .variantA .single fails)) =
    some (some (.error (.transportFailure ⟨7⟩)), [[.tx [0xD8, 0x01, 0x23, 0x45] .one]]) := by decide
theorem test_E3 : eccDecodeA Cfg.default 0x20 = .uncorrectable := by decide
theorem test_E4 : eccDecodeA Cfg.default 0x30 = .corrected 3 := by decide
theorem test_E7 : eccDecodeA Cfg.default 0x40 = .corrected 0 := by decide
theorem test_E10 : eccDecodeA { Cfg.default with eccAUncorr := 3 } 0x20 = .corrected 2 := by decide
theorem test_E13 : eccDecodeA { Cfg.default with eccShift := 5 } 0x40 = .uncorrectable := by decide
theorem test_F2 : eccDecodeB Cfg.default 0x10 = .corrected 0 := by decide
theorem test_F3 : eccDecodeB Cfg.default 0x20 = .corrected 4 := by decide
theorem test_F7 : eccDecodeB Cfg.default 0x60 = .corrected 8 := by decide
theorem test_F9 : eccDecodeB Cfg.default 0xF0 = .uncorrectable := by decide
theorem test_F14 : eccDecodeB { Cfg.default with eccShift := 5 } 0x40 = .corrected 4 := by decide
theorem test_G1 : stopOf (exec (.decodeStatusA 0x00) (fresh [])) = some (.inr .noPolicyForGeneric) := by decide
theorem test_G2 : seen (exec (.decodeStatusB 0x20) (attachedTo .variantB)) =
    some (some (.ecc (.corrected 4)), []) := by decide
theorem test_G3 : seen (exec (.decodeStatusA 0x20) (attachedTo .variantA)) =
    some (some (.ecc .uncorrectable), []) := by decide
theorem test_G5 : seen (exec .identify (fresh [0xC8, 0xF1])) =
    some (some (.identified .variantB 1 [0xC8, 0xF1]), [[.tx [0x9F] .one, .rx 2 .one]]) := by decide
theorem test_G6 : lifecycle (exec .identify (fresh [0x2C, 0x12])) = some (.attached, .variantA) := by decide
theorem test_G7 : lifecycle (exec .identify (fresh [0x2C, 0xF1])) = some (.failed, .generic) := by decide
theorem test_G9 : lifecycle (exec .identify (bench .unattached .generic .single fails)) =
    some (.unattached, .generic) := by decide
theorem test_G12 : seen (exec (.writePage 0x1000000) dead) =
    some (some (.error .unknownDevice), []) := by decide

/-- The 2-bit codes of LIFE and VARIANT (R25, R26). -/
theorem test_codes : [lifeCode .unattached, lifeCode .attached, lifeCode .failed] = [0, 1, 2] ∧
    [variantCode .generic, variantCode .variantA, variantCode .variantB] = [0, 1, 2] := by decide

/-! ## Steps -/

/-- A table word placed at the front of the inputs runs as the first operation after reset. -/
theorem test_step_word : seen (step (State.reset.withFetchWord 16 0x0FC0)) =
    some (some (.data [0x00]), [[.tx [0x0F, 0xC0] .one, .rx 1 .one]]) := by decide
theorem test_step_hardware_reset :
    lifecycle (step (queue [.hardwareReset] dead)) = some (.unattached, .generic) := by decide

/-! ## Witnesses: a state and operands that meet all hypotheses of a statement together -/

theorem witness_HardwareResetStep :
    (queue [.hardwareReset] dead).cfg.wf = true ∧
    (queue [.hardwareReset] dead).pending = .hardwareReset :: [] := by decide

/-- The invariant in ATTACHED, and a step from there. -/
theorem witness_StepKeepsLifecycleInvariant :
    LifecycleInv (queue [ask .reset (gives [])] (attachedTo .variantB)) ∧
    ∃ t, step (queue [ask .reset (gives [])] (attachedTo .variantB)) = .next t :=
  ⟨⟨⟨0xC8, 0xF1, .variantB, ⟨0, 0, 0, 0, 0, 0, []⟩⟩, by decide, rfl⟩, next_of_seen (by decide)⟩

/-- The step that attaches and the one that fails: each a transition of LIFE without a hardware reset. -/
theorem witness_LifecycleTransitions :
    (∃ t, step (queue [ask .identify (gives [0xC8, 0xF1])] (fresh [])) = .next t) ∧
    (queue [ask .identify (gives [0xC8, 0xF1])] (fresh [])).pending.head? ≠ some .hardwareReset ∧
    lifecycle (step (queue [ask .identify (gives [0xC8, 0xF1])] (fresh []))) = some (.attached, .variantB) ∧
    lifecycle (step (queue [ask .identify (gives [0x00, 0x00])] (fresh []))) = some (.failed, .generic) :=
  ⟨next_of_seen (by decide), by decide, by decide, by decide⟩

/-- Two requests in a row at an attached instance. -/
theorem witness_IdentificationLastsForTheLifetime :
    (∃ t, Sys2Proof.core.run 2 (queue [ask .reset (gives []), ask .readId (gives [])]
      (attachedTo .variantB)) = .next t) ∧
    (queue [ask .reset (gives []), ask .readId (gives [])] (attachedTo .variantB)).life ≠ .unattached ∧
    Input.hardwareReset ∉
      (queue [ask .reset (gives []), ask .readId (gives [])] (attachedTo .variantB)).pending :=
  ⟨next_of_seen (r := Sys2Proof.core.run 2 (queue [ask .reset (gives []), ask .readId (gives [])]
    (attachedTo .variantB))) (by decide), by decide, by decide⟩

/-- Two requests in a row at a failed instance. -/
theorem witness_FailedInstanceIsSilent :
    (∃ t, Sys2Proof.core.run 2 (queue [ask .reset (gives []), ask .identify (gives [])] dead) = .next t) ∧
    (queue [ask .reset (gives []), ask .identify (gives [])] dead).life = .failed ∧
    Input.hardwareReset ∉ (queue [ask .reset (gives []), ask .identify (gives [])] dead).pending :=
  ⟨next_of_seen (r := Sys2Proof.core.run 2
    (queue [ask .reset (gives []), ask .identify (gives [])] dead)) (by decide), by decide, by decide⟩

/-- Two requests in a row that both reach the bus. -/
theorem witness_RunAppendsWholeTransactionsInOrder :
    ∃ t, Sys2Proof.core.run 2 (queue [ask .writeEnable (gives []), ask (.readRegister 0xC0) (gives [])]
      (fresh [])) = .next t :=
  next_of_seen (r := Sys2Proof.core.run 2
    (queue [ask .writeEnable (gives []), ask (.readRegister 0xC0) (gives [])] (fresh []))) (by decide)

theorem witness_StepRunsTheDecodedRequest :
    (queue [ask (.writePage 0xFFFFFF) (gives [])] (fresh [])).cfg.wf = true ∧
    (queue [ask (.writePage 0xFFFFFF) (gives [])] (fresh [])).pending =
      .request ⟨encodeReq (.writePage 0xFFFFFF), .single, gives []⟩ :: [] ∧
    decodeReq (fresh []).cfg (encodeReq (.writePage 0xFFFFFF)) = .ok (.writePage 0xFFFFFF) := by decide

theorem witness_StepWithNothingPendingIsIdle :
    State.reset.cfg.wf = true ∧ State.reset.pending = [] := by decide

/-- The first and the last reserved selector. -/
theorem witness_ReservedSelectorIsRefused :
    (fresh []).cfg.wf = true ∧ 13 ≤ (Req.blank 13).op.toNat ∧ 13 ≤ (Req.blank 15).op.toNat ∧
    (queue [.request ⟨Req.blank 13, .single, gives []⟩] (fresh [])).pending =
      .request ⟨Req.blank 13, .single, gives []⟩ :: [] := by decide

/-- One configuration for each constraint, just outside it. -/
theorem witness_IllFormedConfigurationIsRefused :
    5 < ({ Cfg.default with eccShift := 6 } : Cfg).eccShift ∧
    ({ Cfg.default with eccAUncorr := 0 } : Cfg).eccAUncorr = 0 ∧
    ({ Cfg.default with addrInW := 23 } : Cfg).addrInW < 24 ∧
    ¬ ({ Cfg.default with opcReset := 0x06 } : Cfg).opcodes.Nodup := by decide

/-- Two records of LoadPage that agree on the address and on nothing else. -/
theorem witness_UnreadRequestFieldsHaveNoEffect :
    let r : Req := ⟨6, 0x012345, 1, 2, 3, 4, [5], 6⟩
    let r' : Req := ⟨6, 0x012345, 0, 0, 0, 0, [], 0⟩
    r' ≠ r ∧ r'.op = r.op ∧
    (r.op.toNat ∈ [5, 6, 7] → r'.addr = r.addr) ∧ (r.op.toNat ∈ [1, 2] → r'.reg = r.reg) ∧
    (r.op.toNat ∈ [2] → r'.value = r.value) ∧ (r.op.toNat ∈ [8, 9] → r'.offset = r.offset) ∧
    (r.op.toNat ∈ [8, 9] → r'.len = r.len) ∧ (r.op.toNat ∈ [8] → r'.buf = r.buf) ∧
    (r.op.toNat ∈ [11] → r'.raw = r.raw) := by decide

theorem witness_EveryAnswerableRequestIsAnswered :
    (queue [ask (.decodeStatus 0x30) (gives [])] (attachedTo .variantB)).cfg.wf = true ∧
    (queue [ask (.decodeStatus 0x30) (gives [])] (attachedTo .variantB)).pending =
      .request ⟨encodeReq (.decodeStatus 0x30), .single, gives []⟩ :: [] ∧
    decodeReq (attachedTo .variantB).cfg (encodeReq (.decodeStatus 0x30)) = .ok (.decodeStatus 0x30) ∧
    Answerable (.decodeStatus 0x30) (queue [ask (.decodeStatus 0x30) (gives [])] (attachedTo .variantB)) ∧
    gives [] ≠ .never :=
  ⟨by decide, by decide, by decide, .inr (by decide), by decide⟩

/-- A step for each way to stop. -/
theorem witness_StepStopsOnlyForNamedReasons :
    stopOf (step (queue [ask .reset .never] (fresh []))) = some (.inl .transmitNeverReturns) ∧
    stopOf (step { fresh [] with cfg := { Cfg.default with eccShift := 6 } }) =
      some (.inr .badConfiguration) ∧
    stopOf (step (queue [.request ⟨Req.blank 15, .single, gives []⟩] (fresh []))) =
      some (.inr (.noSuchRequest (.reservedSelector 15))) ∧
    stopOf (step (queue [ask (.decodeStatus 0x00) (gives [])] (fresh []))) =
      some (.inr .noPolicyForGeneric) ∧
    stopOf (step (queue [ask .identify (gives [])] (attachedTo .variantB))) =
      some (.inr .identifyWhenAttached) := by decide

theorem witness_FetchWordRunsTheTableWord :
    decodeTableWord 40 0x6B00FFFF00 = some (.readCacheX4 0xFFFF 0) ∧ (fresh []).cfg.wf = true := by decide

theorem witness_AddressAndOffsetBytesRoundTrip : 0xFFFFFF < 2 ^ 24 := by decide

/-- The last address that fits and the first that does not, in the three page operations. -/
theorem witness_AddressOutOfRangeReachesNoBus :
    0xFFFFFF < 2 ^ 24 ∧ 2 ^ 24 ≤ 0x1000000 ∧
    pageAddress? (opOfRow (.writePage 0x1000000)) = some 0x1000000 ∧
    pageAddress? (opOfRow (.loadPage 0x1000000)) = some 0x1000000 ∧
    pageAddress? (opOfRow (.blockErase 0x1000000)) = some 0x1000000 ∧ (fresh []).life ≠ .failed ∧
    build Cfg.default .single .generic (.blockErase 0x1000000) =
      some (.error (.addressOutOfRange 0x1000000)) := by decide

theorem witness_RequestEncodingRoundTrips :
    (Op.writePage (2 ^ 32 - 1)).wf Cfg.default = true ∧ (Op.readCache 0xFFFF 65535).wf Cfg.default = true ∧
    (Instr.writePage 0xFFFFFF).encodable = true := by decide

/-- Each condition of the table is met by some Bus Mode. -/
theorem witness_BusModeAndVariantSelectTheRow :
    selectRow (.storeCache 0 []) ⟨true, false, true, true⟩ .generic = .storeCacheX1 0 [] ∧
    selectRow (.storeCache 0 []) ⟨false, true, false, false⟩ .generic = .storeCacheX4 0 [] ∧
    selectRow (.readCache 0 0) ⟨true, true, false, false⟩ .generic = .readCacheX1 0 0 ∧
    selectRow (.readCache 0 0) ⟨false, false, true, false⟩ .generic = .readCacheX2 0 0 ∧
    selectRow (.readCache 0 0) ⟨false, false, true, true⟩ .generic = .readCacheX4 0 0 := by decide

theorem witness_DescriptorDecodesToItsRow :
    Cfg.default.wf = true ∧ Instr.readCacheX2 0xFFFF 0 ≠ .identify ∧
    encode Cfg.default (.readCacheX2 0xFFFF 0) =
      some ⟨.b5 0x3B 0x00 0xFF 0xFF 0x00, none, some 0, .one, .two⟩ := by decide

/-- A descriptor with a width that is not read. -/
theorem witness_DecodedDescriptorIsTheRowsOwn :
    decode Cfg.default ⟨.b3 0x02 0x12 0x34, some [0x01], none, .one, .four⟩ =
      .ok (.storeCacheX1 0x1234 [0x01]) := by decide

theorem witness_FirstByteTellsTheCommandLength :
    Cfg.default.wf = true ∧
    encode Cfg.default .readId = some ⟨.b1 0x9F, none, some 2, .one, .one⟩ ∧
    encode Cfg.default .identify = some ⟨.b1 0x9F, none, some 2, .one, .one⟩ := by decide

/-- Each of the three rows, at a state that is not FAILED and whose transport answers. -/
theorem witness_OneByteCommandsComplete :
    let l := [(Instr.reset, (fresh []).cfg.opcReset), (Instr.writeEnable, (fresh []).cfg.opcWriteEnable),
      (Instr.writeDisable, (fresh []).cfg.opcWriteDisable)]
    (Instr.reset, 0xFF) ∈ l ∧ (Instr.writeEnable, 0x06) ∈ l ∧ (Instr.writeDisable, 0x04) ∈ l ∧
    (fresh []).life ≠ .failed ∧ (fresh []).answer = .ok ⟨[], 0x00⟩ := by decide

theorem witness_ReadRegisterCompletes :
    (fresh [0x24]).life ≠ .failed ∧ (fresh [0x24]).answer = .ok ⟨[0x24], 0x00⟩ := by decide

theorem witness_WriteRegisterCompletes :
    (attachedTo .variantA).life ≠ .failed ∧ (attachedTo .variantA).answer = .ok ⟨[], 0x00⟩ := by decide

theorem witness_ReadIdCompletes :
    (fresh [0xC8, 0xF1]).life ≠ .failed ∧ (fresh [0xC8, 0xF1]).answer = .ok ⟨[0xC8, 0xF1], 0x00⟩ := by decide

/-- The three rows with the last address that fits and the first that does not. -/
theorem witness_PageOperationsComplete :
    let l := fun a => [(Instr.writePage a, (fresh []).cfg.opcProgramExec),
      (Instr.loadPage a, (fresh []).cfg.opcPageRead), (Instr.blockErase a, (fresh []).cfg.opcBlockErase)]
    (Instr.writePage 0xFFFFFF, 0x10) ∈ l 0xFFFFFF ∧ (Instr.loadPage 0xFFFFFF, 0x13) ∈ l 0xFFFFFF ∧
    (Instr.blockErase 0x1000000, 0xD8) ∈ l 0x1000000 ∧ 0xFFFFFF < 2 ^ 24 ∧ 2 ^ 24 ≤ 0x1000000 ∧
    (⟨.b4 0x10 0xFF 0xFF 0xFF, none, none, .one, .one⟩ : Descriptor) =
      ⟨.b4 0x10 (BitVec.ofNat 8 (0xFFFFFF / 65536)) (BitVec.ofNat 8 (0xFFFFFF / 256))
        (BitVec.ofNat 8 0xFFFFFF), none, none, .one, .one⟩ ∧
    (fresh []).life ≠ .failed ∧ (fresh []).answer = .ok ⟨[], 0x00⟩ := by decide

/-- Both rows, with and without TX_QUAD. -/
theorem witness_StoreCacheCompletes :
    Instr.storeCacheX1 0xFFFF [] ∈ [Instr.storeCacheX1 0xFFFF [], Instr.storeCacheX4 0xFFFF []] ∧
    Instr.storeCacheX4 0xFFFF [] ∈ [Instr.storeCacheX1 0xFFFF [], Instr.storeCacheX4 0xFFFF []] ∧
    (bench .attached .variantA ⟨false, true, false, false⟩ (gives [])).life ≠ .failed ∧
    (bench .attached .variantA ⟨false, true, false, false⟩ (gives [])).answer = .ok ⟨[], 0x00⟩ ∧
    (attachedTo .variantA).life ≠ .failed ∧ (attachedTo .variantA).answer = .ok ⟨[], 0x00⟩ := by decide

/-- The three forms: plain, dual, quad with dual also set. -/
theorem witness_ReadCacheCompletes :
    let c := (fresh []).cfg
    let form := fun (m : BusMode) (oh ol : Byte) =>
      if m.rxQuad then (CommandBytes.b5 c.opcReadCacheX4 0 oh ol 0, Lanes.four)
      else if m.rxDual then (CommandBytes.b5 c.opcReadCacheX2 0 oh ol 0, Lanes.two)
      else (CommandBytes.b4 c.opcReadCache 0 oh ol, Lanes.one)
    (0xFF : Byte) = BitVec.ofNat 8 ((0xFFFF : Offset).toNat / 256) ∧
    (0xFF : Byte) = BitVec.ofNat 8 (0xFFFF : Offset).toNat ∧
    (CommandBytes.b4 0x03 0 0xFF 0xFF, Lanes.one) = form .single 0xFF 0xFF ∧
    (CommandBytes.b5 0x3B 0 0xFF 0xFF 0, Lanes.two) = form ⟨false, false, true, false⟩ 0xFF 0xFF ∧
    (CommandBytes.b5 0x6B 0 0xFF 0xFF 0, Lanes.four) = form ⟨false, false, true, true⟩ 0xFF 0xFF ∧
    (fresh []).life ≠ .failed ∧ (fresh []).answer = .ok ⟨[], 0x00⟩ := by decide

/-- A Bus Mode that differs where the operation does not read it, for StoreCache and for ReadCache. -/
theorem witness_BusModeReachesOnlyTheCacheOperations :
    (∀ o buf, opOfRow (.storeCacheX4 0 []) = .storeCache o buf →
      (⟨true, false, true, true⟩ : BusMode).txQuad = (fresh []).mode.txQuad) ∧
    (∀ o len, opOfRow (.readCacheX1 0 1) = .readCache o len →
      (⟨true, true, false, false⟩ : BusMode).rxQuad = (fresh []).mode.rxQuad ∧
      (⟨true, true, false, false⟩ : BusMode).rxDual = (fresh []).mode.rxDual) ∧
    readsBusMode (opOfRow (.storeCacheX4 0 [])) = true ∧ readsBusMode (opOfRow .reset) = false :=
  ⟨fun _ _ _ => rfl, fun _ _ _ => ⟨rfl, rfl⟩, rfl, rfl⟩

theorem witness_BuildGivesTheSelectedRowsDescriptor :
    build Cfg.default ⟨false, false, false, true⟩ .generic (.readCache 0x1234 1) =
      some (.ok ⟨.b5 0x6B 0x00 0x12 0x34 0x00, none, some 1, .one, .four⟩) := by decide

theorem witness_BuiltDescriptorsPassTheChecks :
    build Cfg.default .single .generic (.readRegister 0xC0) =
      some (.ok ⟨.b2 0x0F 0xC0, none, some 1, .one, .one⟩) ∧
    readsBusMode (.readRegister 0xC0) = false ∧ ∃ t, exec (.readRegister 0xC0) (fresh [0x24]) = .next t :=
  ⟨by decide, rfl, next_of_seen (by decide)⟩

/-- A descriptor for each clause, and a transport answer for each part of the last. -/
theorem witness_DispatchChecksThenSendsOnce :
    (⟨.b0, some [], some 0, .one, .one⟩ : Descriptor).commandBytes = .b0 ∧
    (⟨.b1 0xFF, some [], some 0, .one, .one⟩ : Descriptor).commandBytes ≠ .b0 ∧
    (⟨.b1 0xFF, some [], some 0, .one, .one⟩ : Descriptor).txPayload.isSome = true ∧
    (⟨.b1 0xFF, some [], some 0, .one, .one⟩ : Descriptor).rxPayload.isSome = true ∧
    (⟨.b1 0xFF, some [], none, .one, .one⟩ : Descriptor).rxPayload = none ∧
    (fresh []).answer = .ok ⟨[], 0x00⟩ ∧ (bench .attached .variantA .single fails).answer = .err ⟨7⟩ ∧
    (bench .attached .variantA .single .never).answer = .never := by decide

theorem witness_ReceiveBufferIsFilledInArrivalOrder :
    1 < 2 ∧ received ⟨[0xC8], 0xFF⟩ 2 = [0xC8, 0xFF] := by decide

/-- A request that builds and one that raises. -/
theorem witness_ExecIsGateThenBuildThenDispatch :
    Instr.writePage 0xFFFFFF ≠ .identify ∧
    build (fresh []).cfg (fresh []).mode (fresh []).variant (opOfRow (.writePage 0xFFFFFF)) =
      some (.ok ⟨.b4 0x10 0xFF 0xFF 0xFF, none, none, .one, .one⟩) ∧
    build (fresh []).cfg (fresh []).mode (fresh []).variant (opOfRow (.writePage 0x1000000)) =
      some (.error (.addressOutOfRange 0x1000000)) := by decide

/-- A FAILED instance; and a builder operation at an UNATTACHED and at an ATTACHED one. -/
theorem witness_FailedInstanceAnswersUnknownDevice :
    dead.life = .failed ∧ Instr.reset ≠ .identify ∧
    (fresh []).life ≠ .failed ∧ (fresh []).answer = .ok ⟨[], 0x00⟩ ∧
    build (fresh []).cfg (fresh []).mode (fresh []).variant (opOfRow .reset) =
      some (.ok ⟨.b1 0xFF, none, none, .one, .one⟩) ∧
    (attachedTo .variantB).life ≠ .failed := by decide

/-- A builder operation, and Identify of an UNATTACHED instance. -/
theorem witness_TransportFailureIsPassedThrough :
    let s := bench .unattached .generic .single fails
    build s.cfg s.mode s.variant (opOfRow .writeEnable) = some (.ok ⟨.b1 0x06, none, none, .one, .one⟩) ∧
    build s.cfg s.mode s.variant (opOfRow .identify) = some (.ok ⟨.b1 0x9F, none, some 2, .one, .one⟩) ∧
    s.life ≠ .failed ∧ s.life = .unattached ∧ s.answer = .err ⟨7⟩ := by decide

theorem witness_TransmitThatNeverReturnsIsStuck :
    let s := bench .unattached .generic .single .never
    build s.cfg s.mode s.variant (opOfRow .writeEnable) = some (.ok ⟨.b1 0x06, none, none, .one, .one⟩) ∧
    build s.cfg s.mode s.variant (opOfRow .identify) = some (.ok ⟨.b1 0x9F, none, some 2, .one, .one⟩) ∧
    s.life ≠ .failed ∧ s.life = .unattached ∧ s.answer = .never := by decide

/-- A builder row, DecodeStatus and Identify each answer a next state; and each premise of the frame is met. -/
theorem witness_InstructionFrame :
    (∃ t, exec (.storeCacheX1 0 [0x01]) (attachedTo .variantB) = .next t) ∧
    (∃ t, exec (.decodeStatusB 0x30) (attachedTo .variantB) = .next t) ∧
    (∃ t, exec .identify (fresh [0xC8, 0xF1]) = .next t) ∧
    (Instr.decodeStatusB 0x30 ≠ .identify ∨ (attachedTo .variantB).life ≠ .unattached) ∧
    (∀ d, build (attachedTo .variantB).cfg (attachedTo .variantB).mode (attachedTo .variantB).variant
      (opOfRow (.decodeStatusB 0x30)) ≠ some (.ok d)) :=
  ⟨next_of_seen (by decide), next_of_seen (by decide), next_of_seen (by decide), by decide,
    fun _ h => by cases h⟩

/-- Two instances with different histories and different inputs to come. -/
theorem witness_NothingStaleReachesALaterOperation :
    let s₁ := attachedTo .variantB
    let s₂ := { queue [.hardwareReset] (attachedTo .variantB) with
      busLog := [[.tx [0xFF] .one]], rsp := some .done }
    s₁ ≠ s₂ ∧ s₁.cfg = s₂.cfg ∧ s₁.life = s₂.life ∧ s₁.variant = s₂.variant ∧ s₁.mode = s₂.mode ∧
    s₁.answer = s₂.answer := by decide

/-- The last command byte and the first unused position of a two-byte command. -/
theorem witness_CommandBufferIsZeroBeyondTheCommand :
    let d : Descriptor := ⟨.b2 0x0F 0xC0, none, some 1, .one, .one⟩
    1 < d.commandBytes.toList.length ∧ d.commandBytes.toList.length ≤ 2 ∧ 2 < 5 ∧
    commandBuffer d = [0x0F, 0xC0, 0x00, 0x00, 0x00] := by decide

/-- Both rows under VariantA, with the sentinel's field and with another. -/
theorem witness_DecodeStatusUnderVariantA :
    Instr.decodeStatusA 0x20 ∈ [Instr.decodeStatusA 0x20, Instr.decodeStatusB 0x20] ∧
    Instr.decodeStatusB 0x20 ∈ [Instr.decodeStatusA 0x20, Instr.decodeStatusB 0x20] ∧
    (attachedTo .variantA).life ≠ .failed ∧ (attachedTo .variantA).variant = .variantA ∧
    2 = (0x20 : Byte).toNat / 2 ^ (attachedTo .variantA).cfg.eccShift % 4 ∧
    2 = (attachedTo .variantA).cfg.eccAUncorr.toNat ∧
    3 = (0x30 : Byte).toNat / 2 ^ (attachedTo .variantA).cfg.eccShift % 4 := by decide

/-- Both rows under VariantB, with the fields 0, 1, 2, 6 and 7, where the clauses meet. -/
theorem witness_DecodeStatusUnderVariantB :
    let f := fun raw : Byte => raw.toNat / 2 ^ (attachedTo .variantB).cfg.eccShift % 8
    Instr.decodeStatusA 0x70 ∈ [Instr.decodeStatusA 0x70, Instr.decodeStatusB 0x70] ∧
    Instr.decodeStatusB 0x70 ∈ [Instr.decodeStatusA 0x70, Instr.decodeStatusB 0x70] ∧
    (attachedTo .variantB).life ≠ .failed ∧ (attachedTo .variantB).variant = .variantB ∧
    0 = f 0x0F ∧ 1 = f 0x10 ∧ 2 = f 0x20 ∧ 6 = f 0x60 ∧ 7 = f 0x70 := by decide

theorem witness_DecodeStatusUnderGenericIsRefused :
    Instr.decodeStatusA 0x00 ∈ [Instr.decodeStatusA 0x00, Instr.decodeStatusB 0x00] ∧
    Instr.decodeStatusB 0x00 ∈ [Instr.decodeStatusA 0x00, Instr.decodeStatusB 0x00] ∧
    (fresh []).life ≠ .failed ∧ (fresh []).variant = .generic := by decide

/-- The ends of both ranges of counts. -/
theorem witness_EccCountsStayInTheirRange :
    eccDecodeB Cfg.default 0x10 = .corrected 0 ∧ eccDecodeB Cfg.default 0x20 = .corrected 4 ∧
    eccDecodeB Cfg.default 0x60 = .corrected 8 ∧ eccDecodeA Cfg.default 0x30 = .corrected 3 := by decide

/-- A match at the last row of a well-formed table, and bytes that match none. -/
theorem witness_IdLookupReturnsTheLowestMatch :
    idTableWf idt = true ∧
    idLookup idt 0xC8 0xF1 = some (1, ⟨0xC8, 0xF1, .variantB, ⟨0, 0, 0, 0, 0, 0, []⟩⟩) ∧
    idLookup idt 0x2C 0xF1 = none := by decide

/-- An UNATTACHED instance that reads bytes of the table, one that reads bytes of no row, an empty table; and
an ATTACHED instance that answers. -/
theorem witness_IdentifyAttachesOrFailsForGood :
    (fresh [0xC8, 0xF1]).life = .unattached ∧ (fresh [0xC8, 0xF1]).answer = .ok ⟨[0xC8, 0xF1], 0x00⟩ ∧
    received ⟨[0xC8, 0xF1], 0x00⟩ 2 = [0xC8, 0xF1] ∧
    idLookup (fresh [0xC8, 0xF1]).cfg.idTable 0xC8 0xF1 =
      some (1, ⟨0xC8, 0xF1, .variantB, ⟨0, 0, 0, 0, 0, 0, []⟩⟩) ∧
    idLookup (fresh [0xC8, 0xF1]).cfg.idTable 0x00 0x00 = none ∧ State.reset.cfg.idTable = [] ∧
    (attachedTo .variantB).life ≠ .unattached ∧ ∃ t, exec .reset (attachedTo .variantB) = .next t :=
  ⟨by decide, by decide, by decide, by decide, by decide, by decide, by decide, next_of_seen (by decide)⟩

theorem witness_IdentifyIsRefusedWhenAttached :
    dead.life = .failed ∧ (attachedTo .variantB).life = .attached := by decide

theorem witness_IdentifySurvivesATransportFailure :
    (bench .unattached .generic .single fails).life = .unattached ∧
    (bench .unattached .generic .single fails).answer = .err ⟨7⟩ := by decide

/-- One operation for each error. -/
theorem witness_WhichOperationReturnsWhichError :
    seen (exec .reset dead) = some (some (.error .unknownDevice), []) ∧
    seen (exec (.loadPage 0x1000000) (fresh [])) = some (some (.error (.addressOutOfRange 0x1000000)), []) ∧
    seen (exec .writeEnable (bench .attached .variantA .single fails)) =
      some (some (.error (.transportFailure ⟨7⟩)), [[.tx [0x06] .one]]) := by decide

/-- An operation for each field: received bytes, a count, an uncorrectable result, a variant with its row. -/
theorem witness_ResponseFieldsBelongToTheirOperations :
    seen (exec .readId (fresh [0xC8, 0xF1])) =
      some (some (.data [0xC8, 0xF1]), [[.tx [0x9F] .one, .rx 2 .one]]) ∧
    rspRxdata (.data [0xC8, 0xF1]) = some [0xC8, 0xF1] ∧
    seen (exec (.decodeStatusB 0x60) (attachedTo .variantB)) = some (some (.ecc (.corrected 8)), []) ∧
    rspCorrected (.ecc (.corrected 8)) = some 8 ∧
    seen (exec (.decodeStatusB 0x70) (attachedTo .variantB)) = some (some (.ecc .uncorrectable), []) ∧
    rspUncorrectable (.ecc .uncorrectable) = some true ∧
    seen (exec .identify (fresh [0x2C, 0x12])) =
      some (some (.identified .variantA 0 [0x2C, 0x12]), [[.tx [0x9F] .one, .rx 2 .one]]) ∧
    rspIdentified (.identified .variantA 0 [0x2C, 0x12]) = some (.variantA, 0) := by decide

theorem witness_OnlyIdentifyFailsAnInstance :
    (∃ t, exec .identify (fresh [0x00, 0x00]) = .next t) ∧
    lifecycle (exec .identify (fresh [0x00, 0x00])) = some (.failed, .generic) ∧
    (fresh [0x00, 0x00]).life ≠ .failed :=
  ⟨next_of_seen (by decide), by decide, by decide⟩

end Sys2Proof.Tests
end

section
/-! SUPPORT. Proofs of the Command Builder's operations without an address or offset
(40_builder_simple.md). -/

namespace Sys2Proof.Machine

/-! ## A builder row that succeeds -/

/-- At an instance that is not FAILED, a valid descriptor that the transport answers with `Ok` makes one call
on the bus, and the response is made from the bytes received (R151, R153, R155). -/
theorem execBuilt_answered {s : State} {d : Descriptor} {rx : RxStream}
    (hc : d.commandBytes.toList ≠ []) (hp : d.txPayload = none ∨ d.rxPayload = none)
    (hl : s.life ≠ .failed) (ha : s.answer = .ok rx) (r : List Byte → Response) :
    execBuilt (.ok d) r s =
      .next (respond (r (received rx (d.rxPayload.getD 0))) (logCall (legs d) s)) := by
  rw [execBuilt_ok hl, dispatch_of_valid hc hp, transmit_ok ha, rxLength_legs]
  rfl

/-- The same of a row of the operation table, by the descriptor that `Build` gives its operation. -/
theorem exec_answered {i : Instr} {s : State} {d : Descriptor} {rx : RxStream} (hi : i ≠ .identify)
    (hb : build s.cfg s.mode s.variant (opOfRow i) = some (.ok d))
    (hc : d.commandBytes.toList ≠ []) (hp : d.txPayload = none ∨ d.rxPayload = none)
    (hl : s.life ≠ .failed) (ha : s.answer = .ok rx) :
    exec i s =
      .next (respond (rowResponse i (received rx (d.rxPayload.getD 0))) (logCall (legs d) s)) := by
  rw [exec_builder hi hb, execBuilt_answered hc hp hl ha]

/-- A receive buffer of one byte holds the first byte to arrive, or the idle byte. -/
theorem received_one (rx : RxStream) : received rx 1 = [rx.bytes.getD 0 rx.idle] := by
  obtain ⟨bytes, idle⟩ := rx
  cases bytes with
  | nil => rfl
  | cons b bs => simp [received]

/-! ## Reset, WriteEnable, WriteDisable, ReadRegister, WriteRegister -/

/-- Settles O25: the three rows differ only in the opcode, and each is a builder row with a valid
descriptor. -/
theorem oneByteCommandsComplete : Obligations.OneByteCommandsComplete := by
  intro s mode v i opcode hi
  simp only [List.mem_cons, Prod.mk.injEq, List.not_mem_nil, or_false] at hi
  obtain ⟨rfl, rfl⟩ | ⟨rfl, rfl⟩ | ⟨rfl, rfl⟩ := hi <;>
    exact ⟨rfl, fun rx hl ha =>
      exec_answered Instr.noConfusion rfl (List.cons_ne_nil _ _) (.inl rfl) hl ha⟩

/-- Settles O26: the receive leg asks for one byte, and that byte is the response. -/
theorem readRegisterCompletes : Obligations.ReadRegisterCompletes := by
  intro s mode v reg
  refine ⟨rfl, fun rx hl ha => ?_⟩
  rw [← received_one]
  exact exec_answered (d := buildReadRegister s.cfg reg) Instr.noConfusion rfl (List.cons_ne_nil _ _)
    (.inl rfl) hl ha

/-- Settles O27: the payload is the transmit leg, so there is no receive leg. -/
theorem writeRegisterCompletes : Obligations.WriteRegisterCompletes := by
  intro s mode v reg value
  exact ⟨rfl, fun rx hl ha =>
    exec_answered Instr.noConfusion rfl (List.cons_ne_nil _ _) (.inr rfl) hl ha⟩

end Sys2Proof.Machine
end

section
/-! SUPPORT. Proofs of the Command Builder's operations with a page address (41_builder_address.md) and of the
address and offset bytes they share with the encodings (R84, R85, R130, R134). -/

namespace Sys2Proof.Machine

/-! ## Address and offset bytes -/

/-- An address that does not fit is never truncated (R130). -/
theorem packAddr_of_le {a : Nat} (h : 2 ^ 24 ≤ a) : packAddr a = .error (.addressOutOfRange a) :=
  if_pos h

theorem packAddr_of_lt {a : Nat} (h : a < 2 ^ 24) :
    packAddr a = .ok (byteAt a 16, byteAt a 8, byteAt a 0) :=
  if_neg (Nat.not_le.2 h)

theorem byteAt_sixteen (a : Nat) : byteAt a 16 = BitVec.ofNat 8 (a / 65536) := by
  rw [byteAt, Nat.shiftRight_eq_div_pow]

theorem byteAt_eight (a : Nat) : byteAt a 8 = BitVec.ofNat 8 (a / 256) := by
  rw [byteAt, Nat.shiftRight_eq_div_pow]

theorem byteAt_zero (a : Nat) : byteAt a 0 = BitVec.ofNat 8 a := rfl

/-- The three address bytes are the address's digits in base 256 (R84, R134). -/
theorem unpackAddr_byteAt {a : Nat} (h : a < 2 ^ 24) :
    unpackAddr (byteAt a 16) (byteAt a 8) (byteAt a 0) = a := by
  simp only [unpackAddr, byteAt_toNat, Nat.shiftRight_eq_div_pow]
  omega

/-- The two offset bytes are the offset's digits in base 256 (R85). -/
theorem packOffset_toNat (o : Offset) :
    (packOffset o).1.toNat * 256 + (packOffset o).2.toNat = o.toNat := by
  have ho : o.toNat < 2 ^ 16 := o.isLt
  simp only [packOffset, byteAt_toNat, Nat.shiftRight_eq_div_pow]
  omega

/-- Settles O17: the address bytes are those of `packAddr`, and both byte sequences are the number's digits in
base 256. -/
theorem addressAndOffsetBytesRoundTrip : Obligations.AddressAndOffsetBytesRoundTrip :=
  ⟨fun _ ha => ⟨_, _, _, packAddr_of_lt ha, unpackAddr_byteAt ha⟩, packOffset_toNat⟩

/-! ## WritePage, LoadPage, BlockErase -/

theorem buildPageCommand_of_le {a : Nat} (h : 2 ^ 24 ≤ a) (opcode : Byte) :
    buildPageCommand opcode a = .error (.addressOutOfRange a) := by
  rw [buildPageCommand, packAddr_of_le h]

/-- The descriptor of a page-address operation: the opcode, then the address as given (R131 to R133). -/
theorem buildPageCommand_of_lt {a : Nat} (h : a < 2 ^ 24) (opcode : Byte) :
    buildPageCommand opcode a =
      .ok ⟨.b4 opcode (BitVec.ofNat 8 (a / 65536)) (BitVec.ofNat 8 (a / 256)) (BitVec.ofNat 8 a),
        none, none, .one, .one⟩ := by
  rw [buildPageCommand, packAddr_of_lt h, byteAt_sixteen, byteAt_eight, byteAt_zero]
  rfl

/-- The three page-address rows are builder rows over one page command and differ only in its opcode; none
answers with data (R131 to R133). -/
theorem pageRow_build {c : Cfg} {i : Instr} {opcode : Byte} {a : Nat}
    (hi : (i, opcode) ∈ [(Instr.writePage a, c.opcProgramExec), (Instr.loadPage a, c.opcPageRead),
      (Instr.blockErase a, c.opcBlockErase)]) :
    i ≠ .identify ∧ rowResponse i = noData ∧
      ∀ mode v, build c mode v (opOfRow i) = some (buildPageCommand opcode a) := by
  simp only [List.mem_cons, Prod.mk.injEq, List.not_mem_nil, or_false] at hi
  obtain ⟨rfl, rfl⟩ | ⟨rfl, rfl⟩ | ⟨rfl, rfl⟩ := hi <;>
    exact ⟨Instr.noConfusion, rfl, fun _ _ => rfl⟩

/-- Settles O29: the three rows build one page command, whose address packs or is out of range; one that
packs is a valid descriptor without a receive leg. -/
theorem pageOperationsComplete : Obligations.PageOperationsComplete := by
  rintro s mode v i opcode a d hi rfl
  obtain ⟨hne, hresp, hbuild⟩ := pageRow_build hi
  refine ⟨fun ha => ?_, fun ha => ?_⟩
  · rw [hbuild, buildPageCommand_of_le ha]
  · simp only [buildPageCommand_of_lt ha] at hbuild
    refine ⟨hbuild mode v, fun rx hl hans => ?_⟩
    rw [exec_answered hne (hbuild s.mode s.variant) (List.cons_ne_nil _ _) (.inl rfl) hl hans, hresp]
    rfl

end Sys2Proof.Machine
end

section
/-! SUPPORT. Proofs of Device Identification (45_device_identification.md). -/

namespace Sys2Proof.Machine

/-! ## The lookup's two ends -/

/-- A row that matches the two bytes sets VARIANT and LIFE and is reported with its index (R182). -/
theorem concludeIdentify_found {s : State} {m d : Byte} {k : Nat} {row : IdRow}
    (h : idLookup s.cfg.idTable m d = some (k, row)) :
    concludeIdentify [m, d] s =
      .next (respond (.identified row.variant k [m, d]) (attach row.variant s)) := by
  simp [concludeIdentify, h]

/-- Two bytes that match no row end the instance (R183). -/
theorem concludeIdentify_notFound {s : State} {m d : Byte} (h : idLookup s.cfg.idTable m d = none) :
    concludeIdentify [m, d] s = .next (respond (.error .unknownDevice) (markFailed s)) := by
  simp [concludeIdentify, h]

theorem idLookup_nil (m d : Byte) : idLookup [] m d = none := rfl

/-! ## Identify of an UNATTACHED instance -/

/-- ReadId's descriptor passes the dispatcher's checks, so it is sent. -/
theorem dispatch_buildReadId (c : Cfg) (v : Variant) (s : State) :
    dispatch (buildReadId c v) s = transmit (legs (buildReadId c v)) s :=
  dispatch_of_valid (d := buildReadId c v) (List.cons_ne_nil _ _) (.inl rfl) s

/-- At an UNATTACHED instance whose transport answers `Ok`, Identify makes one call with ReadId's legs and
looks up the two bytes received (R180). -/
theorem execIdentify_answered {s : State} {rx : RxStream} (hl : s.life = .unattached)
    (ha : s.answer = .ok rx) :
    execIdentify s =
      concludeIdentify (received rx 2) (logCall (legs (buildReadId s.cfg s.variant)) s) := by
  have hf : s.life ≠ .failed := by simp [hl]
  have hn : s.life ≠ .attached := by simp [hl]
  have hrx : rxLength (legs (buildReadId s.cfg s.variant)) = 2 := by simp [buildReadId]
  rw [execIdentify, gate_open hf, if_neg hn, dispatch_buildReadId, transmit_ok ha, hrx]
  rfl

/-! ## What no later operation writes -/

/-- An instance that has left UNATTACHED keeps LIFE and VARIANT through every instruction: a row other than
Identify writes neither, and Identify answers only at the gate (R182, R183). -/
theorem exec_keeps_life_variant {i : Instr} {s t : State} (hl : s.life ≠ .unattached)
    (h : exec i s = .next t) : t.life = s.life ∧ t.variant = s.variant := by
  by_cases hi : i = .identify
  · subst hi
    obtain ⟨-, rfl⟩ | ⟨hu, -⟩ := execIdentify_next h
    · exact ⟨rfl, rfl⟩
    · exact absurd hu hl
  · obtain ⟨rsp, rfl⟩ | ⟨d, rsp, -, rfl⟩ := exec_next h hi
    · exact ⟨rfl, rfl⟩
    · exact ⟨rfl, rfl⟩

/-- Settles O50: the one call answers with the two bytes, the lookup decides between the two ends, and
outside UNATTACHED no row writes LIFE or VARIANT. -/
theorem identifyAttachesOrFailsForGood : Obligations.IdentifyAttachesOrFailsForGood := by
  refine ⟨fun s rx m d hl ha hrx => ?_, fun i s t hl h => exec_keeps_life_variant hl h⟩
  have hexec : exec .identify s =
      concludeIdentify [m, d] (logCall (legs (buildReadId s.cfg s.variant)) s) :=
    hrx ▸ execIdentify_answered hl ha
  refine ⟨fun k row hfound => ?_, fun hnone => ?_, fun hempty => ?_⟩
  · exact hexec.trans (concludeIdentify_found hfound)
  · exact hexec.trans (concludeIdentify_notFound hnone)
  · rw [hempty, idLookup_nil]

end Sys2Proof.Machine
end

section
/-! SUPPORT. Proofs of the exceptions (60_exceptions.md). -/

namespace Sys2Proof.Machine

/-! ## Which `Build` raises (R196) -/

theorem buildPageCommand_eq_error_iff {opcode : Byte} {a : Nat} {e : ErrorKind} :
    buildPageCommand opcode a = .error e ↔ 2 ^ 24 ≤ a ∧ e = .addressOutOfRange a := by
  obtain ha | ha := Nat.lt_or_ge a (2 ^ 24)
  · rw [buildPageCommand_of_lt ha]
    exact ⟨nofun, fun ⟨hle, _⟩ => absurd hle (Nat.not_le.2 ha)⟩
  · rw [buildPageCommand_of_le ha, Except.error.injEq]
    exact ⟨fun h => ⟨ha, h.symm⟩, fun ⟨_, he⟩ => he.symm⟩

/-- An operation with a page address builds a page command of that address. -/
theorem build_of_pageAddress {op : Op} {a : Nat} (h : pageAddress? op = some a) (c : Cfg)
    (mode : BusMode) (v : Variant) :
    ∃ opcode, build c mode v op = some (buildPageCommand opcode a) := by
  cases op <;> cases h
  case writePage => exact ⟨c.opcProgramExec, rfl⟩
  case loadPage => exact ⟨c.opcPageRead, rfl⟩
  case blockErase => exact ⟨c.opcBlockErase, rfl⟩

/-- An operation without a page address has a descriptor or none at all, and no range error. -/
theorem build_ne_error {op : Op} (h : pageAddress? op = none) (c : Cfg) (mode : BusMode) (v : Variant)
    (e : ErrorKind) : build c mode v op ≠ some (.error e) := by
  cases op <;> cases h
  all_goals simp [build]

theorem build_eq_error_iff {c : Cfg} {mode : BusMode} {v : Variant} {op : Op} {e : ErrorKind} :
    build c mode v op = some (.error e) ↔
      ∃ a, pageAddress? op = some a ∧ 2 ^ 24 ≤ a ∧ e = .addressOutOfRange a := by
  cases hp : pageAddress? op with
  | none => simp [build_ne_error hp]
  | some a =>
    obtain ⟨opcode, hb⟩ := build_of_pageAddress hp c mode v
    simp [hb, buildPageCommand_eq_error_iff]

/-! ## A builder row whose `Build` raises -/

/-- At an instance that is not FAILED, a row whose `Build` raises ends with that error and changes nothing
else (R196). -/
theorem exec_of_build_error {i : Instr} {s : State} {e : ErrorKind} (hi : i ≠ .identify)
    (hb : build s.cfg s.mode s.variant (opOfRow i) = some (.error e)) (hl : s.life ≠ .failed) :
    exec i s = .next (respond (.error e) s) := by
  rw [exec_builder hi hb, execBuilt_error hl]

/-- Settles O18: `Build` raises through `packAddr` only, and a row whose `Build` raises ends before the
dispatcher. -/
theorem addressOutOfRangeReachesNoBus : Obligations.AddressOutOfRangeReachesNoBus := by
  refine ⟨fun a => ⟨packAddr_of_le, fun ha => ?_⟩, fun _ _ _ _ _ => build_eq_error_iff,
    fun i s a hp ha hl => ?_⟩
  · rw [packAddr_of_lt ha, byteAt_sixteen, byteAt_eight, byteAt_zero]
  · have hi : i ≠ .identify := by rintro rfl; cases hp
    exact exec_of_build_error hi (build_eq_error_iff.2 ⟨a, hp, ha, rfl⟩) hl

end Sys2Proof.Machine
end

section
/-! SUPPORT. The rows of the operation table: the row an operation runs as and the shape of a row's descriptor
(R83, R88, R156). -/

namespace Sys2Proof

/-! ## Rows and operations -/

theorem selectRow_storeCache (o : Offset) (buf : List Byte) (mode : BusMode) (v : Variant) :
    selectRow (.storeCache o buf) mode v = if mode.txQuad then .storeCacheX4 o buf else .storeCacheX1 o buf :=
  rfl

theorem selectRow_readCache (o : Offset) (len : Nat) (mode : BusMode) (v : Variant) :
    selectRow (.readCache o len) mode v =
      if mode.rxQuad then .readCacheX4 o len
      else if mode.rxDual then .readCacheX2 o len
      else .readCacheX1 o len :=
  rfl

/-- The row selected for an operation belongs to it, whatever the Bus Mode and VARIANT are. -/
@[simp] theorem opOfRow_selectRow (op : Op) (mode : BusMode) (v : Variant) :
    opOfRow (selectRow op mode v) = op := by
  cases op with
  | storeCache o buf => rw [selectRow_storeCache]; split <;> rfl
  | readCache o len =>
    rw [selectRow_readCache]
    split
    · rfl
    · split <;> rfl
  | decodeStatus raw => cases v <;> rfl
  | _ => rfl

/-- A row that has a command is the one selected under the Bus Mode that meets its condition. -/
theorem selectRow_opOfRow {i : Instr} (h : i.encodable = true) (v : Variant) :
    selectRow (opOfRow i) (modeOfRow i) v = i := by
  cases i with
  | decodeStatusA raw => cases h
  | decodeStatusB raw => cases h
  | _ => rfl

/-- Identify is the one row of its operation. -/
theorem opOfRow_eq_identify {i : Instr} : opOfRow i = .identify ↔ i = .identify := by
  cases i <;> simp [opOfRow]

theorem selectRow_eq_identify {op : Op} {mode : BusMode} {v : Variant} :
    selectRow op mode v = .identify ↔ op = .identify := by
  rw [← opOfRow_eq_identify, opOfRow_selectRow]

/-! ## The shape of a row's descriptor -/

@[simp] theorem Descriptor.ofRow_commandBytes (cb : CommandBytes) (leg : DataLeg) :
    (Descriptor.ofRow cb leg).commandBytes = cb := by cases leg <;> rfl

theorem Descriptor.ofPageRow_of_lt {a : Nat} (h : a < 2 ^ 24) (op : Byte) :
    Descriptor.ofPageRow op a =
      some (.ofRow (.b4 op (Machine.byteAt a 16) (Machine.byteAt a 8) (Machine.byteAt a 0)) .none) := by
  simp only [Descriptor.ofPageRow, Machine.packAddr_of_lt h]
  rfl

theorem Descriptor.ofPageRow_of_le {a : Nat} (h : 2 ^ 24 ≤ a) (op : Byte) :
    Descriptor.ofPageRow op a = none := by
  simp only [Descriptor.ofPageRow, Machine.packAddr_of_le h]

/-- A page-address row has a descriptor exactly when its address packs. -/
theorem Descriptor.ofPageRow_eq_some_iff {op : Byte} {a : Nat} {d : Descriptor} :
    Descriptor.ofPageRow op a = some d ↔ a < 2 ^ 24 ∧
      d = .ofRow (.b4 op (Machine.byteAt a 16) (Machine.byteAt a 8) (Machine.byteAt a 0)) .none := by
  obtain ha | ha := Nat.lt_or_ge a (2 ^ 24)
  · rw [Descriptor.ofPageRow_of_lt ha, Option.some.injEq]
    exact ⟨fun h => ⟨ha, h.symm⟩, fun h => h.2.symm⟩
  · rw [Descriptor.ofPageRow_of_le ha]
    exact ⟨nofun, fun h => absurd h.1 (Nat.not_lt.2 ha)⟩

/-- The descriptor of a row has the form that `ofRow` gives, on one lane in both directions unless the row's
operation reads the Bus Mode. -/
theorem encode_eq_ofRow {c : Cfg} {i : Instr} {d : Descriptor} (h : encode c i = some d) :
    (∃ cb leg, d = .ofRow cb leg) ∧
      (Machine.readsBusMode (opOfRow i) = false → d.txBitWidth = .one ∧ d.rxBitWidth = .one) := by
  cases i with
  | decodeStatusA raw => cases h
  | decodeStatusB raw => cases h
  | writePage a | loadPage a | blockErase a =>
    obtain ⟨-, rfl⟩ := Descriptor.ofPageRow_eq_some_iff.1 h
    exact ⟨⟨_, _, rfl⟩, fun _ => ⟨rfl, rfl⟩⟩
  | storeCacheX1 o buf | storeCacheX4 o buf | readCacheX1 o len | readCacheX2 o len | readCacheX4 o len =>
    cases h; exact ⟨⟨_, _, rfl⟩, nofun⟩
  | _ => cases h; exact ⟨⟨_, _, rfl⟩, fun _ => ⟨rfl, rfl⟩⟩

/-- The command of every row has its layout's length, which is 1 to CMD_MAX (R83). -/
theorem encode_length (i : Instr) : Laws.CommandLength.Statement i :=
  match i with
  | .reset => Laws.CommandLength.reset
  | .readRegister reg => Laws.CommandLength.readRegister reg
  | .writeRegister reg value => Laws.CommandLength.writeRegister reg value
  | .writeEnable => Laws.CommandLength.writeEnable
  | .writeDisable => Laws.CommandLength.writeDisable
  | .readId => Laws.CommandLength.readId
  | .writePage a => Laws.CommandLength.writePage a
  | .loadPage a => Laws.CommandLength.loadPage a
  | .blockErase a => Laws.CommandLength.blockErase a
  | .storeCacheX1 o buf => Laws.CommandLength.storeCacheX1 o buf
  | .storeCacheX4 o buf => Laws.CommandLength.storeCacheX4 o buf
  | .readCacheX1 o len => Laws.CommandLength.readCacheX1 o len
  | .readCacheX2 o len => Laws.CommandLength.readCacheX2 o len
  | .readCacheX4 o len => Laws.CommandLength.readCacheX4 o len
  | .decodeStatusA raw => Laws.CommandLength.decodeStatusA raw
  | .decodeStatusB raw => Laws.CommandLength.decodeStatusB raw
  | .identify => Laws.CommandLength.identify

end Sys2Proof

namespace Sys2Proof.Machine

/-! ## What `Build` returns -/

/-- The columns of the table and the rules of a page-address operation give one descriptor. -/
theorem ofPageRow_of_buildPageCommand {opcode : Byte} {a : Nat} {d : Descriptor}
    (h : buildPageCommand opcode a = .ok d) : Descriptor.ofPageRow opcode a = some d := by
  unfold buildPageCommand at h
  unfold Descriptor.ofPageRow
  split at h
  · cases h
  · next hp => cases h; rw [hp]; rfl

/-- What `Build` returns is the descriptor of the row that the Bus Mode and VARIANT select. -/
theorem encode_selectRow_of_build {c : Cfg} {mode : BusMode} {v : Variant} {op : Op} {d : Descriptor}
    (h : build c mode v op = some (.ok d)) : encode c (selectRow op mode v) = some d := by
  cases op with
  | decodeStatus raw => cases h
  | writePage a | loadPage a | blockErase a => exact ofPageRow_of_buildPageCommand (Option.some.inj h)
  | storeCache o buf =>
    cases h
    rw [selectRow_storeCache, buildStoreCache]
    split <;> rfl
  | readCache o len =>
    cases h
    rw [selectRow_readCache, buildReadCache, readCacheBytes, readCacheWidth]
    split
    · rfl
    · split <;> rfl
  | readId | identify => cases h; simp [selectRow, encode, buildReadId, Descriptor.ofRow]
  | _ => cases h; rfl

/-- Settles O33: case by case, the builder's rules are the columns of the selected row. -/
theorem buildGivesTheSelectedRowsDescriptor : Obligations.BuildGivesTheSelectedRowsDescriptor :=
  fun _ _ _ _ _ => encode_selectRow_of_build

/-- A built descriptor has a command of 1 to 5 bytes (R83). -/
theorem build_commandBytes_length {c : Cfg} {mode : BusMode} {v : Variant} {op : Op} {d : Descriptor}
    (h : build c mode v op = some (.ok d)) :
    1 ≤ d.commandBytes.toList.length ∧ d.commandBytes.toList.length ≤ 5 := by
  obtain ⟨hl, hlow, hhigh⟩ := encode_length _ c d (encode_selectRow_of_build h)
  exact ⟨hl ▸ hlow, hl ▸ hhigh⟩

theorem build_commandBytes_ne_nil {c : Cfg} {mode : BusMode} {v : Variant} {op : Op} {d : Descriptor}
    (h : build c mode v op = some (.ok d)) : d.commandBytes.toList ≠ [] :=
  List.ne_nil_of_length_pos (build_commandBytes_length h).1

/-- A built descriptor has at most one payload, and width 1 in a direction without one. -/
theorem build_payloads {c : Cfg} {mode : BusMode} {v : Variant} {op : Op} {d : Descriptor}
    (h : build c mode v op = some (.ok d)) :
    (d.txPayload = none ∨ d.rxPayload = none) ∧
      (d.txPayload = none → d.txBitWidth = .one) ∧ (d.rxPayload = none → d.rxBitWidth = .one) := by
  obtain ⟨⟨cb, leg, rfl⟩, -⟩ := encode_eq_ofRow (encode_selectRow_of_build h)
  cases leg <;> simp [Descriptor.ofRow]

/-- A built descriptor passes both checks of the dispatcher (R156). -/
theorem dispatch_of_build {c : Cfg} {mode : BusMode} {v : Variant} {op : Op} {d : Descriptor}
    (h : build c mode v op = some (.ok d)) (s : State) : dispatch d s = transmit (legs d) s :=
  dispatch_of_valid (build_commandBytes_ne_nil h) (build_payloads h).1 s

end Sys2Proof.Machine
end

section
/-! SUPPORT. What an instruction can do, said once: how each outcome of `exec` arises, and that there is no
other. -/

namespace Sys2Proof.Machine

/-! ## The outcomes, one by one -/

/-- In FAILED every row is answered UnknownDevice (R157). -/
theorem exec_failed {s : State} (h : s.life = .failed) (i : Instr) :
    exec i s = .next (respond (.error .unknownDevice) s) := by
  by_cases hi : i = .identify
  · subst hi
    exact gate_failed h _
  · cases hb : build s.cfg s.mode s.variant (opOfRow i) with
    | some b => rw [exec_builder hi hb, execBuilt_failed h]
    | none =>
      obtain ⟨raw, -, he⟩ := exec_other hb
      rw [he]
      exact gate_failed h _

/-- A row of DecodeStatus has the meaning of its operation. -/
theorem exec_of_decodeStatus {i : Instr} {raw : Byte} (h : opOfRow i = .decodeStatus raw) (s : State) :
    exec i s = decodeStatus raw s := by
  obtain ⟨raw', hraw, he⟩ := exec_other (i := i) (s := s) (by rw [h]; rfl)
  cases h.symm.trans hraw
  exact he

/-- Past the gate, DecodeStatus answers what the policy says (R173). -/
theorem exec_of_eccDecode {i : Instr} {s : State} {raw : Byte} {r : EccResult}
    (h : opOfRow i = .decodeStatus raw) (hl : s.life ≠ .failed)
    (he : eccDecode s.cfg s.variant raw = some r) : exec i s = .next (respond (.ecc r) s) := by
  rw [exec_of_decodeStatus h, decodeStatus, gate_open hl, he]
  rfl

/-- Past the gate, DecodeStatus is refused under Generic (R175). -/
theorem exec_of_generic {i : Instr} {s : State} {raw : Byte} (h : opOfRow i = .decodeStatus raw)
    (hl : s.life ≠ .failed) (hv : s.variant = .generic) : exec i s = .refused .noPolicyForGeneric := by
  rw [exec_of_decodeStatus h, decodeStatus, gate_open hl, hv]
  rfl

theorem exec_identify (s : State) : exec .identify s = execIdentify s := rfl

/-- Identify of an ATTACHED instance is refused (R185). -/
theorem exec_identify_attached {s : State} (h : s.life = .attached) :
    exec .identify s = .refused .identifyWhenAttached := by
  have hl : s.life ≠ .failed := by simp [h]
  rw [exec_identify, execIdentify, gate_open hl, if_pos h]

/-- Identify of an UNATTACHED instance whose two bytes match a row sets VARIANT and LIFE (R182). -/
theorem exec_identify_found {s : State} {rx : RxStream} {k : Nat} {row : IdRow}
    (hl : s.life = .unattached) (ha : s.answer = .ok rx)
    (hk : idLookup s.cfg.idTable (idBytes (received rx 2)).1 (idBytes (received rx 2)).2 = some (k, row)) :
    exec .identify s = .next (respond (.identified row.variant k (received rx 2))
      (attach row.variant (logCall (legs (buildReadId s.cfg s.variant)) s))) := by
  rw [exec_identify, execIdentify_answered hl ha, concludeIdentify, logCall_cfg, hk]
  rfl

/-- Identify of an UNATTACHED instance whose two bytes match no row ends in FAILED (R183). -/
theorem exec_identify_notFound {s : State} {rx : RxStream} (hl : s.life = .unattached)
    (ha : s.answer = .ok rx)
    (hk : idLookup s.cfg.idTable (idBytes (received rx 2)).1 (idBytes (received rx 2)).2 = none) :
    exec .identify s = .next (respond (.error .unknownDevice)
      (markFailed (logCall (legs (buildReadId s.cfg s.variant)) s))) := by
  rw [exec_identify, execIdentify_answered hl ha, concludeIdentify, logCall_cfg, hk]
  rfl

/-- Past the gate, every operation with a descriptor makes one call with all its legs, and the answer
decides (R153, R155). -/
theorem exec_transmits {i : Instr} {s : State} {d : Descriptor}
    (hb : build s.cfg s.mode s.variant (opOfRow i) = some (.ok d)) (hl : s.life ≠ .failed)
    (hi : i = .identify → s.life = .unattached) :
    ∃ k, exec i s = (transmit (legs d) s).finish k := by
  by_cases h : i = .identify
  · subst h
    cases hb
    have hn : s.life ≠ .attached := by simp [hi rfl]
    exact ⟨_, by rw [exec_identify, execIdentify, gate_open hl, if_neg hn, dispatch_buildReadId]⟩
  · exact ⟨_, by rw [exec_builder h hb, execBuilt_ok hl, dispatch_of_build hb]⟩

/-- The transport's error ends the operation (R193). -/
theorem exec_of_transportError {i : Instr} {s : State} {d : Descriptor} {e : TransportError}
    (hb : build s.cfg s.mode s.variant (opOfRow i) = some (.ok d)) (hl : s.life ≠ .failed)
    (hi : i = .identify → s.life = .unattached) (ha : s.answer = .err e) :
    exec i s = .next (respond (.error (.transportFailure e)) (logCall (legs d) s)) := by
  obtain ⟨k, hk⟩ := exec_transmits hb hl hi
  rw [hk, transmit_err ha]
  rfl

/-- A call that does not return leaves the operation stuck (U8). -/
theorem exec_of_never {i : Instr} {s : State} {d : Descriptor}
    (hb : build s.cfg s.mode s.variant (opOfRow i) = some (.ok d)) (hl : s.life ≠ .failed)
    (hi : i = .identify → s.life = .unattached) (ha : s.answer = .never) :
    exec i s = .fault .transmitNeverReturns := by
  obtain ⟨k, hk⟩ := exec_transmits hb hl hi
  rw [hk, transmit_never ha]
  rfl

/-- A builder row whose transport answers `Ok` is answered from the bytes received. -/
theorem exec_of_build_ok {i : Instr} {s : State} {d : Descriptor} {rx : RxStream} (hi : i ≠ .identify)
    (hb : build s.cfg s.mode s.variant (opOfRow i) = some (.ok d)) (hl : s.life ≠ .failed)
    (ha : s.answer = .ok rx) :
    exec i s =
      .next (respond (rowResponse i (received rx (d.rxPayload.getD 0))) (logCall (legs d) s)) :=
  exec_answered hi hb (build_commandBytes_ne_nil hb) (build_payloads hb).1 hl ha

/-- Only Generic has no policy (R175). -/
theorem eccDecode_eq_none {c : Cfg} {v : Variant} {raw : Byte} :
    eccDecode c v raw = none ↔ v = .generic := by
  cases v <;> simp [eccDecode]

/-! ## All outcomes -/

/-- The outcomes of the row `i` at the state `s`, each with the conditions under which it arises. -/
inductive ExecOutcome (i : Instr) (s : State) : Result → Prop
  /-- The gate (R157). -/
  | failed (hl : s.life = .failed) : ExecOutcome i s (.next (respond (.error .unknownDevice) s))
  /-- `Build` raised (R196). -/
  | raised {e : ErrorKind} (hl : s.life ≠ .failed) (hi : i ≠ .identify)
      (hb : build s.cfg s.mode s.variant (opOfRow i) = some (.error e)) :
      ExecOutcome i s (.next (respond (.error e) s))
  /-- The transport failed (R193). -/
  | transportFailed {d : Descriptor} {e : TransportError} (hl : s.life ≠ .failed)
      (hb : build s.cfg s.mode s.variant (opOfRow i) = some (.ok d))
      (hi : i = .identify → s.life = .unattached) (ha : s.answer = .err e) :
      ExecOutcome i s (.next (respond (.error (.transportFailure e)) (logCall (legs d) s)))
  /-- The transport did not return (U8). -/
  | stuck {d : Descriptor} (hl : s.life ≠ .failed)
      (hb : build s.cfg s.mode s.variant (opOfRow i) = some (.ok d))
      (hi : i = .identify → s.life = .unattached) (ha : s.answer = .never) :
      ExecOutcome i s (.fault .transmitNeverReturns)
  /-- A builder operation succeeded (R155). -/
  | sent {d : Descriptor} {rx : RxStream} (hl : s.life ≠ .failed) (hi : i ≠ .identify)
      (hb : build s.cfg s.mode s.variant (opOfRow i) = some (.ok d)) (ha : s.answer = .ok rx) :
      ExecOutcome i s (.next
        (respond (rowResponse i (received rx (d.rxPayload.getD 0))) (logCall (legs d) s)))
  /-- A status byte was decoded (R173). -/
  | decoded {raw : Byte} {r : EccResult} (hl : s.life ≠ .failed) (ho : opOfRow i = .decodeStatus raw)
      (he : eccDecode s.cfg s.variant raw = some r) : ExecOutcome i s (.next (respond (.ecc r) s))
  /-- There is no policy (R175). -/
  | noPolicy {raw : Byte} (hl : s.life ≠ .failed) (ho : opOfRow i = .decodeStatus raw)
      (hv : s.variant = .generic) : ExecOutcome i s (.refused .noPolicyForGeneric)
  /-- Identify of an attached instance (R185). -/
  | attached (hl : s.life = .attached) (hi : i = .identify) :
      ExecOutcome i s (.refused .identifyWhenAttached)
  /-- Identify found a row (R182). -/
  | identified {rx : RxStream} {k : Nat} {row : IdRow} (hl : s.life = .unattached) (hi : i = .identify)
      (ha : s.answer = .ok rx)
      (hk : idLookup s.cfg.idTable (idBytes (received rx 2)).1 (idBytes (received rx 2)).2 =
        some (k, row)) :
      ExecOutcome i s (.next (respond (.identified row.variant k (received rx 2))
        (attach row.variant (logCall (legs (buildReadId s.cfg s.variant)) s))))
  /-- Identify found none (R183). -/
  | unknown {rx : RxStream} (hl : s.life = .unattached) (hi : i = .identify) (ha : s.answer = .ok rx)
      (hk : idLookup s.cfg.idTable (idBytes (received rx 2)).1 (idBytes (received rx 2)).2 = none) :
      ExecOutcome i s (.next (respond (.error .unknownDevice)
        (markFailed (logCall (legs (buildReadId s.cfg s.variant)) s))))

/-- Identify past the gate: refused in ATTACHED; else one call, whose answer and the lookup decide. -/
theorem exec_identify_outcome {s : State} (hl : s.life ≠ .failed) :
    ExecOutcome .identify s (exec .identify s) := by
  cases hlife : s.life with
  | failed => exact absurd hlife hl
  | attached => rw [exec_identify_attached hlife]; exact .attached hlife rfl
  | unattached =>
    cases ha : s.answer with
    | err e =>
      rw [exec_of_transportError rfl hl (fun _ => hlife) ha]
      exact .transportFailed hl rfl (fun _ => hlife) ha
    | never =>
      rw [exec_of_never rfl hl (fun _ => hlife) ha]
      exact .stuck hl rfl (fun _ => hlife) ha
    | ok rx =>
      cases hk : idLookup s.cfg.idTable (idBytes (received rx 2)).1 (idBytes (received rx 2)).2 with
      | some found => rw [exec_identify_found hlife ha hk]; exact .identified hlife rfl ha hk
      | none => rw [exec_identify_notFound hlife ha hk]; exact .unknown hlife rfl ha hk

/-- Every row at every state has one of the outcomes listed. -/
theorem exec_outcome (i : Instr) (s : State) : ExecOutcome i s (exec i s) := by
  by_cases hl : s.life = .failed
  · rw [exec_failed hl]; exact .failed hl
  by_cases hi : i = .identify
  · subst hi; exact exec_identify_outcome hl
  have hi' : i = .identify → s.life = .unattached := fun h => absurd h hi
  cases hb : build s.cfg s.mode s.variant (opOfRow i) with
  | none =>
    obtain ⟨raw, ho, -⟩ := exec_other hb
    cases he : eccDecode s.cfg s.variant raw with
    | none =>
      have hv := eccDecode_eq_none.1 he
      rw [exec_of_generic ho hl hv]
      exact .noPolicy hl ho hv
    | some r => rw [exec_of_eccDecode ho hl he]; exact .decoded hl ho he
  | some b =>
    cases b with
    | error e => rw [exec_of_build_error hi hb hl]; exact .raised hl hi hb
    | ok d =>
      cases ha : s.answer with
      | ok rx => rw [exec_of_build_ok hi hb hl ha]; exact .sent hl hi hb ha
      | err e => rw [exec_of_transportError hb hl hi' ha]; exact .transportFailed hl hb hi' ha
      | never => rw [exec_of_never hb hl hi' ha]; exact .stuck hl hb hi' ha

/-- What an outcome of a row says about how it arose. -/
theorem exec_outcome_of_eq {i : Instr} {s : State} {r : Result} (h : exec i s = r) :
    ExecOutcome i s r :=
  h ▸ exec_outcome i s

end Sys2Proof.Machine
end

section
/-! SUPPORT. Proofs of the Vendor ECC Decoder (44_vendor_ecc_decoder.md). -/

namespace Sys2Proof.Machine

/-- The ECC field is the digit of the status byte at the shift (R170). -/
theorem eccField_toNat (c : Cfg) (raw : Byte) (w : Nat) :
    (eccField c raw w).toNat = raw.toNat / 2 ^ c.eccShift % 2 ^ w := by
  simp [eccField, Nat.shiftRight_eq_div_pow]

/-- VariantA's policy in numbers (R171). -/
theorem eccDecodeA_eq {c : Cfg} {raw : Byte} {f : Nat} (hf : f = raw.toNat / 2 ^ c.eccShift % 4) :
    eccDecodeA c raw =
      if f = c.eccAUncorr.toNat then .uncorrectable else .corrected (BitVec.ofNat 4 f) := by
  have hfield : (eccField c raw 2).toNat = f := (eccField_toNat c raw 2).trans hf.symm
  have hcount : (eccField c raw 2).setWidth 4 = BitVec.ofNat 4 f := by
    rw [← BitVec.ofNat_toNat, hfield]
  simp only [eccDecodeA, hcount, ← BitVec.toNat_inj, hfield]

/-- VariantB's policy in numbers (R172). -/
theorem eccDecodeB_eq {c : Cfg} {raw : Byte} {f : Nat} (hf : f = raw.toNat / 2 ^ c.eccShift % 8) :
    eccDecodeB c raw =
      if f = 7 then .uncorrectable
      else if f ≤ 1 then .corrected 0
      else .corrected (BitVec.ofNat 4 (f + 2)) := by
  have hfield : (eccField c raw 3).toNat = f := (eccField_toNat c raw 3).trans hf.symm
  have hcount : (eccField c raw 3).setWidth 4 + 2 = BitVec.ofNat 4 (f + 2) := by
    rw [← BitVec.ofNat_toNat, hfield, BitVec.ofNat_add]
    rfl
  have huncorr : eccField c raw 3 = Config.eccBUncorr ↔ f = 7 := by
    rw [← BitVec.toNat_inj, hfield]
    rfl
  have hlow : eccField c raw 3 ≤ 1 ↔ f ≤ 1 := by
    rw [BitVec.le_def, hfield]
    rfl
  simp only [eccDecodeB, hcount, huncorr, hlow]

/-- The two rows of DecodeStatus belong to one operation. -/
theorem opOfRow_decodeStatus {i : Instr} {raw : Byte}
    (h : i ∈ [Instr.decodeStatusA raw, Instr.decodeStatusB raw]) : opOfRow i = .decodeStatus raw := by
  simp only [List.mem_cons, List.not_mem_nil, or_false] at h
  obtain rfl | rfl := h <;> rfl

/-- Settles O45: either row answers what VariantA's policy says of the field. -/
theorem decodeStatusUnderVariantA : Obligations.DecodeStatusUnderVariantA := by
  intro s i raw f hi hl hv hf
  have he : eccDecode s.cfg .variantA raw = some
      (if f = s.cfg.eccAUncorr.toNat then .uncorrectable else .corrected (BitVec.ofNat 4 f)) :=
    congrArg some (eccDecodeA_eq hf)
  exact ⟨he, exec_of_eccDecode (opOfRow_decodeStatus hi) hl (hv ▸ he)⟩

/-- Settles O46: either row answers what VariantB's policy says of the field. -/
theorem decodeStatusUnderVariantB : Obligations.DecodeStatusUnderVariantB := by
  intro s i raw f hi hl hv hf
  have he : eccDecode s.cfg .variantB raw = some
      (if f = 7 then .uncorrectable
       else if f ≤ 1 then .corrected 0
       else .corrected (BitVec.ofNat 4 (f + 2))) :=
    congrArg some (eccDecodeB_eq hf)
  exact ⟨he, exec_of_eccDecode (opOfRow_decodeStatus hi) hl (hv ▸ he)⟩

/-- Settles O47: Generic has no policy. -/
theorem decodeStatusUnderGenericIsRefused : Obligations.DecodeStatusUnderGenericIsRefused :=
  fun _ _ _ hi hl hv => ⟨rfl, exec_of_generic (opOfRow_decodeStatus hi) hl hv⟩

/-- A count under VariantA is the two-bit field, which is not the sentinel. -/
theorem eccDecodeA_corrected {c : Cfg} {raw : Byte} {n : BitVec 4} (h : eccDecodeA c raw = .corrected n) :
    n.toNat ≤ 3 ∧ n.toNat ≠ c.eccAUncorr.toNat := by
  obtain ⟨f, hf⟩ : ∃ f, f = raw.toNat / 2 ^ c.eccShift % 4 := ⟨_, rfl⟩
  rw [eccDecodeA_eq hf] at h
  split at h
  · cases h
  · next hne =>
    cases h
    have hn : (BitVec.ofNat 4 f).toNat = f := by
      rw [BitVec.toNat_ofNat]
      omega
    rw [hn]
    omega

/-- A count under VariantB is 0, or the three-bit field plus 2, where the field is 2 to 6. -/
theorem eccDecodeB_corrected {c : Cfg} {raw : Byte} {n : BitVec 4} (h : eccDecodeB c raw = .corrected n) :
    n.toNat = 0 ∨ 4 ≤ n.toNat ∧ n.toNat ≤ 8 := by
  obtain ⟨f, hf⟩ : ∃ f, f = raw.toNat / 2 ^ c.eccShift % 8 := ⟨_, rfl⟩
  rw [eccDecodeB_eq hf] at h
  split at h
  · cases h
  · split at h
    · cases h
      exact .inl rfl
    · cases h
      rw [BitVec.toNat_ofNat]
      omega

/-- Settles O48: the counts are read off the policies in numbers. -/
theorem eccCountsStayInTheirRange : Obligations.EccCountsStayInTheirRange :=
  fun _ _ _ => ⟨eccDecodeB_corrected, eccDecodeA_corrected⟩

/-- A count is at most 8, whatever the variant. -/
theorem eccDecode_corrected_le {c : Cfg} {v : Variant} {raw : Byte} {n : BitVec 4}
    (h : eccDecode c v raw = some (.corrected n)) : n.toNat ≤ 8 := by
  cases v with
  | generic => cases h
  | variantA =>
    have hr := eccDecodeA_corrected (Option.some.inj h)
    omega
  | variantB =>
    have hr := eccDecodeB_corrected (Option.some.inj h)
    omega

end Sys2Proof.Machine
end

section
/-! SUPPORT. Proofs of the identification table's lookup (45_device_identification.md). -/

namespace Sys2Proof.Machine

/-- The lookup from index `n` on gives the lowest match, counted from `n`. -/
theorem idLookupFrom_eq_some_iff {n i : Nat} {table : List IdRow} {m d : Byte} {row : IdRow} :
    idLookupFrom n table m d = some (i, row) ↔
      ∃ k, i = n + k ∧ table[k]? = some row ∧ row.mfr = m ∧ row.dev = d ∧
        ∀ (j : Nat) (r : IdRow), j < k → table[j]? = some r → ¬ (r.mfr = m ∧ r.dev = d) := by
  induction table generalizing n with
  | nil => simp [idLookupFrom]
  | cons r rows ih =>
    unfold idLookupFrom
    split
    · next hr =>
      constructor
      · intro h
        cases h
        exact ⟨0, rfl, rfl, hr.1, hr.2, fun j _ hj => absurd hj (Nat.not_lt_zero j)⟩
      · rintro ⟨k, rfl, hk, -, -, hlow⟩
        cases k with
        | zero => cases hk; rfl
        | succ k => exact absurd hr (hlow 0 r (Nat.succ_pos k) rfl)
    · next hr =>
      rw [ih]
      constructor
      · rintro ⟨k, rfl, hk, hm, hd, hlow⟩
        refine ⟨k + 1, by omega, hk, hm, hd, fun j q hj hq => ?_⟩
        cases j with
        | zero => cases hq; exact hr
        | succ j => exact hlow j q (Nat.lt_of_succ_lt_succ hj) hq
      · rintro ⟨k, rfl, hk, hm, hd, hlow⟩
        cases k with
        | zero => cases hk; exact absurd ⟨hm, hd⟩ hr
        | succ k =>
          exact ⟨k, by omega, hk, hm, hd, fun j q hj hq => hlow (j + 1) q (Nat.succ_lt_succ hj) hq⟩

/-- The lookup gives the row of the lowest index that matches on both bytes. -/
theorem idLookup_eq_some_iff {i : Nat} {table : List IdRow} {m d : Byte} {row : IdRow} :
    idLookup table m d = some (i, row) ↔
      table[i]? = some row ∧ row.mfr = m ∧ row.dev = d ∧
        ∀ (j : Nat) (r : IdRow), j < i → table[j]? = some r → ¬ (r.mfr = m ∧ r.dev = d) := by
  simp [idLookup, idLookupFrom_eq_some_iff]

theorem idLookupFrom_eq_none_iff {n : Nat} {table : List IdRow} {m d : Byte} :
    idLookupFrom n table m d = none ↔ ∀ r ∈ table, ¬ (r.mfr = m ∧ r.dev = d) := by
  induction table generalizing n with
  | nil => simp [idLookupFrom]
  | cons r rows ih =>
    rw [List.forall_mem_cons, ← ih (n := n + 1), idLookupFrom]
    split
    · next hr => simp [hr]
    · next hr => simp [hr]

/-- In a well-formed table the manufacturer byte selects the variant (R181). -/
theorem variant_eq_of_idTableWf {table : List IdRow} (hw : idTableWf table = true) {a b : IdRow}
    (ha : a ∈ table) (hb : b ∈ table) (hm : a.mfr = b.mfr) : a.variant = b.variant := by
  simp only [idTableWf, Bool.and_eq_true, List.all_eq_true, Bool.or_eq_true, Bool.not_eq_true',
    decide_eq_false_iff_not, decide_eq_true_eq] at hw
  exact (hw.2 a ha b hb).resolve_left (not_not_intro hm)

/-- Settles O49: the lookup's two ends by recursion on the table, and the found row is a row of it. -/
theorem idLookupReturnsTheLowestMatch : Obligations.IdLookupReturnsTheLowestMatch := by
  refine fun table m d => ⟨fun i row => idLookup_eq_some_iff, idLookupFrom_eq_none_iff,
    fun i row hw h r hr hm => ?_⟩
  obtain ⟨-, hrow, -, -⟩ := idLookup_eq_some_iff.1 h
  exact variant_eq_of_idTableWf hw hr (idLookupFrom_mem h) (hm.trans hrow.symm)

/-- Settles O51: the gate, and the refusal after it. -/
theorem identifyIsRefusedWhenAttached : Obligations.IdentifyIsRefusedWhenAttached :=
  fun _ => ⟨fun h => exec_failed h _, exec_identify_attached⟩

/-- Settles O52: Identify is one of the operations that pass a transport failure through. -/
theorem identifySurvivesATransportFailure : Obligations.IdentifySurvivesATransportFailure := by
  intro s e hl ha
  have hf : s.life ≠ .failed := by simp [hl]
  have hlegs : legs (buildReadId s.cfg s.variant) = [.tx [s.cfg.opcReadId] .one, .rx 2 .one] := by
    simp [legs, txLeg, rxLeg, buildReadId, layoutL1, CommandBytes.toList]
  rw [exec_of_transportError rfl hf (fun _ => hl) ha, hlegs]
  rfl

end Sys2Proof.Machine
end

section
/-! SUPPORT. Proofs of the Transport Dispatcher and the whole operation (43_transport_dispatcher.md). -/

namespace Sys2Proof.Machine

/-! ## The dispatcher -/

theorem toList_eq_nil {cb : CommandBytes} : cb.toList = [] ↔ cb = .b0 := by
  cases cb <;> simp [CommandBytes.toList]

/-- Settles O35: the two checks in their order, then the transport. -/
theorem dispatchChecksThenSendsOnce : Obligations.DispatchChecksThenSendsOnce := by
  refine fun d s => ⟨fun hc => if_pos (toList_eq_nil.2 hc), fun hc htx hrx => ?_, fun hc hp => ?_⟩
  · rw [dispatch, if_neg (mt toList_eq_nil.1 hc), if_pos ⟨htx, hrx⟩]
  · rw [dispatch_of_valid (mt toList_eq_nil.1 hc) hp]
    refine ⟨fun rx ha => ?_, fun e ha => transmit_err ha _, fun ha => transmit_never ha _⟩
    rw [transmit_ok ha, rxLength_legs]
    rfl

/-- Settles O36: the legs, by the payload that is present. -/
theorem legsAreCommandThenAtMostOneDataLeg : Obligations.LegsAreCommandThenAtMostOneDataLeg :=
  fun _ _ _ => ⟨rfl, fun _ => rfl, fun _ => rfl⟩

/-- Byte `k` of a receive buffer is byte `k` of what arrives, or the idle byte. -/
theorem received_getElem? (rx : RxStream) {n k : Nat} (h : k < n) :
    (received rx n)[k]? = some (rx.bytes.getD k rx.idle) := by
  rw [received, List.getElem?_take_of_lt h, List.getD_eq_getElem?_getD]
  obtain hk | hk := Nat.lt_or_ge k rx.bytes.length
  · rw [List.getElem?_append_left hk, List.getElem?_eq_getElem hk]
    rfl
  · rw [List.getElem?_append_right hk, List.getElem?_replicate_of_lt (by omega),
      List.getElem?_eq_none hk]
    rfl

/-- Settles O37: the length, and each byte before or after the end of what arrives. -/
theorem receiveBufferIsFilledInArrivalOrder : Obligations.ReceiveBufferIsFilledInArrivalOrder :=
  fun rx n => ⟨received_length rx n, fun _ => received_getElem? rx⟩

/-- Settles O44: the command bytes, then the filling zeros. -/
theorem commandBufferIsZeroBeyondTheCommand : Obligations.CommandBufferIsZeroBeyondTheCommand := by
  intro d
  have hlen : d.commandBytes.toList.length ≤ 5 := by
    cases d.commandBytes <;> simp [CommandBytes.toList]
  have hmax : Config.cmdMax = 5 := rfl
  refine ⟨?_, fun k hk => List.getElem?_append_left hk, fun k hk hk5 => ?_⟩
  · rw [commandBuffer, List.length_append, List.length_replicate]
    omega
  · rw [commandBuffer, List.getElem?_append_right hk, List.getElem?_replicate_of_lt (by omega)]

/-! ## The whole operation -/

/-- A row that succeeds answers `done` or the bytes received. -/
theorem rowResponse_cases {i : Instr} {rx : List Byte} {r : Response} (h : rowResponse i rx = r) :
    r = .done ∨ r = .data rx := by
  subst h
  cases i with
  | readRegister _ | readId | readCacheX1 _ _ | readCacheX2 _ _ | readCacheX4 _ _ => exact .inr rfl
  | _ => exact .inl rfl

/-- A row answers with data exactly when its descriptor has a receive leg. -/
theorem rowResponse_of_build {c : Cfg} {mode : BusMode} {v : Variant} {i : Instr} {d : Descriptor}
    (hi : i ≠ .identify) (hb : build c mode v (opOfRow i) = some (.ok d)) (rx : List Byte) :
    rowResponse i rx = if d.rxPayload.isSome then .data rx else .done := by
  cases i with
  | identify => exact absurd rfl hi
  | decodeStatusA raw | decodeStatusB raw => cases hb
  | writePage a | loadPage a | blockErase a =>
    obtain ⟨-, rfl⟩ := Descriptor.ofPageRow_eq_some_iff.1
      (ofPageRow_of_buildPageCommand (Option.some.inj hb))
    rfl
  | _ => cases hb; rfl

/-- Settles O38: the builder operation of a row, unfolded in the order gate, `Build`, `Dispatch`. -/
theorem execIsGateThenBuildThenDispatch : Obligations.ExecIsGateThenBuildThenDispatch := by
  intro i s built hi hb
  rw [exec_builder hi hb]
  by_cases hl : s.life = .failed
  · rw [execBuilt_failed hl, if_pos hl]
    rfl
  · rw [if_neg hl]
    cases built with
    | error e => exact execBuilt_error hl e _
    | ok d =>
      rw [execBuilt_ok hl]
      simp only [rowResponse_of_build hi hb]
      cases dispatch d s with
      | ok rx s' => rfl
      | raised e s' => rfl
      | stuck => rfl

/-- Settles O39: the gate, and the answer of a builder row past it. -/
theorem failedInstanceAnswersUnknownDevice : Obligations.FailedInstanceAnswersUnknownDevice := by
  refine ⟨fun i s hl => exec_failed hl i, fun i s d rx hi hl hb ha => ?_⟩
  exact ⟨_, exec_of_build_ok hi hb hl ha, rfl,
    (rowResponse_cases rfl).imp (congrArg some) (congrArg some)⟩

/-- Settles O40: every operation with a descriptor transmits, and the error ends it. -/
theorem transportFailureIsPassedThrough : Obligations.TransportFailureIsPassedThrough :=
  fun _ _ _ _ hb hl hi ha => exec_of_transportError hb hl hi ha

/-- Settles O41: every operation with a descriptor transmits, and the call does not return. -/
theorem transmitThatNeverReturnsIsStuck : Obligations.TransmitThatNeverReturnsIsStuck :=
  fun _ _ _ hb hl hi ha => exec_of_never hb hl hi ha

/-! ## The frame -/

/-- No instruction writes what surrounds the instance. -/
theorem exec_sameSurroundings {i : Instr} {s t : State} (h : exec i s = .next t) :
    SameSurroundings s t := by
  cases exec_outcome_of_eq h <;> exact ⟨rfl, rfl, rfl, rfl⟩

theorem exec_rsp_ne_none {i : Instr} {s t : State} (h : exec i s = .next t) : t.rsp ≠ none := by
  cases exec_outcome_of_eq h <;> exact Option.some_ne_none _

/-- The bus log is unchanged, or longer by the one call of the operation's own descriptor; the second only at
an instance that is not FAILED. -/
theorem exec_busLog {i : Instr} {s t : State} (h : exec i s = .next t) :
    t.busLog = s.busLog ∨
      s.life ≠ .failed ∧ ∃ d, build s.cfg s.mode s.variant (opOfRow i) = some (.ok d) ∧
        t.busLog = s.busLog ++ [legs d] := by
  cases exec_outcome_of_eq h with
  | failed hl => exact .inl rfl
  | raised hl hi hb => exact .inl rfl
  | decoded hl ho he => exact .inl rfl
  | transportFailed hl hb hi ha => exact .inr ⟨hl, _, hb, rfl⟩
  | sent hl hi hb ha => exact .inr ⟨hl, _, hb, rfl⟩
  | identified hl hi ha hk => exact .inr ⟨by simp [hl], _, by subst hi; rfl, rfl⟩
  | unknown hl hi ha hk => exact .inr ⟨by simp [hl], _, by subst hi; rfl, rfl⟩

/-- What an instruction can do to LIFE and VARIANT: nothing; or, as Identify of an UNATTACHED instance, attach
it to a row's variant, or fail it with UnknownDevice (R182, R183). -/
theorem exec_life_variant {i : Instr} {s t : State} (h : exec i s = .next t) :
    (t.life = s.life ∧ t.variant = s.variant) ∨
    i = .identify ∧ s.life = .unattached ∧
      ((t.life = .attached ∧ ∃ row ∈ s.cfg.idTable, row.variant = t.variant) ∨
       (t.life = .failed ∧ t.variant = s.variant ∧ t.rsp = some (.error .unknownDevice))) := by
  cases exec_outcome_of_eq h with
  | identified hl hi ha hk => exact .inr ⟨hi, hl, .inl ⟨rfl, _, idLookupFrom_mem hk, rfl⟩⟩
  | unknown hl hi ha hk => exact .inr ⟨hi, hl, .inr ⟨rfl, rfl, rfl⟩⟩
  | _ => exact .inl ⟨rfl, rfl⟩

/-- Settles O42: the surroundings, the response, LIFE and VARIANT, and the bus log, each by its own lemma. -/
theorem instructionFrame : Obligations.InstructionFrame := by
  refine fun i s t h => ⟨exec_sameSurroundings h, exec_rsp_ne_none h, fun hw => ?_, ?_, fun hw => ?_⟩
  · obtain hk | ⟨hi, hl, -⟩ := exec_life_variant h
    · exact hk
    · exact absurd hw (by simp [hi, hl])
  · exact (exec_busLog h).imp_right And.right
  · obtain hk | ⟨hl, d, hb, -⟩ := exec_busLog h
    · exact hk
    · exact absurd hw (not_or_intro hl fun hn => hn d hb)

/-! ## What an instruction depends on -/

/-- Two states that agree on the configuration, LIFE, VARIANT, the answer and what `Build` returns give the
same effect. -/
theorem exec_sameEffect {i : Instr} {s₁ s₂ : State} (hc : s₁.cfg = s₂.cfg) (hl : s₁.life = s₂.life)
    (hv : s₁.variant = s₂.variant) (ha : s₁.answer = s₂.answer)
    (hb : build s₁.cfg s₁.mode s₁.variant (opOfRow i) = build s₂.cfg s₂.mode s₂.variant (opOfRow i)) :
    SameEffect s₁ s₂ (exec i s₁) (exec i s₂) := by
  have hout := exec_outcome i s₂
  generalize exec i s₂ = r at hout
  cases hout with
  | failed hf =>
    rw [exec_failed (hl.trans hf)]
    exact ⟨hl, hv, rfl, [], by simp, by simp⟩
  | raised hf hi hbuilt =>
    rw [exec_of_build_error hi (hb.trans hbuilt) (hl ▸ hf)]
    exact ⟨hl, hv, rfl, [], by simp, by simp⟩
  | transportFailed hf hbuilt hi hans =>
    rw [exec_of_transportError (hb.trans hbuilt) (hl ▸ hf) (hl ▸ hi) (ha.trans hans)]
    exact ⟨hl, hv, rfl, _, rfl, rfl⟩
  | stuck hf hbuilt hi hans =>
    rw [exec_of_never (hb.trans hbuilt) (hl ▸ hf) (hl ▸ hi) (ha.trans hans)]
    rfl
  | sent hf hi hbuilt hans =>
    rw [exec_of_build_ok hi (hb.trans hbuilt) (hl ▸ hf) (ha.trans hans)]
    exact ⟨hl, hv, rfl, _, rfl, rfl⟩
  | decoded hf ho he =>
    rw [exec_of_eccDecode ho (hl ▸ hf) (hc ▸ hv ▸ he)]
    exact ⟨hl, hv, rfl, [], by simp, by simp⟩
  | noPolicy hf ho hg =>
    rw [exec_of_generic ho (hl ▸ hf) (hv.trans hg)]
    rfl
  | attached hatt hi =>
    subst hi
    rw [exec_identify_attached (hl.trans hatt)]
    rfl
  | identified hu hi hans hk =>
    subst hi
    rw [exec_identify_found (hl.trans hu) (ha.trans hans) (hc ▸ hk), hc, hv]
    exact ⟨rfl, rfl, rfl, _, rfl, rfl⟩
  | unknown hu hi hans hk =>
    subst hi
    rw [exec_identify_notFound (hl.trans hu) (ha.trans hans) (hc ▸ hk), hc, hv]
    exact ⟨rfl, hv, rfl, _, rfl, rfl⟩

/-- Settles O43: neither `Build` nor anything else reads the histories. -/
theorem nothingStaleReachesALaterOperation : Obligations.NothingStaleReachesALaterOperation :=
  fun i _ _ hc hl hv hm ha => exec_sameEffect hc hl hv ha (by rw [hc, hm, hv])

end Sys2Proof.Machine
end

section
/-! SUPPORT. Proofs of the responses and the exceptions (10_state.md section 1, 60_exceptions.md). -/

namespace Sys2Proof.Machine

/-! ## Which operation a response comes from -/

/-- Received bytes come from a row whose descriptor has a receive leg, and fill it (R22). -/
theorem exec_rsp_data {i : Instr} {s t : State} {bytes : List Byte} (h : exec i s = .next t)
    (hr : t.rsp = some (.data bytes)) :
    ∃ d n, build s.cfg s.mode s.variant (opOfRow i) = some (.ok d) ∧ d.rxPayload = some n ∧
      bytes.length = n := by
  cases exec_outcome_of_eq h with
  | sent hl hi hb ha =>
    rw [respond_rsp, rowResponse_of_build hi hb] at hr
    split at hr
    · next hs =>
      obtain ⟨n, hn⟩ := Option.isSome_iff_exists.1 hs
      cases hr
      exact ⟨_, n, hb, hn, by simp [hn]⟩
    · cases hr
  | _ => cases hr

/-- A decoding result comes from DecodeStatus, by the policy of the VARIANT held (R173). -/
theorem exec_rsp_ecc {i : Instr} {s t : State} {r : EccResult} (h : exec i s = .next t)
    (hr : t.rsp = some (.ecc r)) :
    ∃ raw, opOfRow i = .decodeStatus raw ∧ eccDecode s.cfg s.variant raw = some r := by
  cases exec_outcome_of_eq h with
  | decoded hl ho he => cases hr; exact ⟨_, ho, he⟩
  | sent hl hi hb ha => obtain hd | hd := rowResponse_cases (Option.some.inj hr) <;> cases hd
  | _ => cases hr

/-- An identification comes from Identify, which attached the instance to a row of the table (R182). -/
theorem exec_rsp_identified {i : Instr} {s t : State} {v : Variant} {k : Nat} {bytes : List Byte}
    (h : exec i s = .next t) (hr : t.rsp = some (.identified v k bytes)) :
    i = .identify ∧ t.variant = v ∧ t.life = .attached ∧ bytes.length = 2 ∧
      ∃ row, s.cfg.idTable[k]? = some row ∧ row.variant = v := by
  cases exec_outcome_of_eq h with
  | identified hl hi ha hk =>
    cases hr
    exact ⟨hi, rfl, rfl, received_length _ _, _, (idLookup_eq_some_iff.1 hk).1, rfl⟩
  | sent hl hi hb ha => obtain hd | hd := rowResponse_cases (Option.some.inj hr) <;> cases hd
  | _ => cases hr

/-- The operations that raise an error, with the error each raises (R190, 60_exceptions.md section 1). -/
theorem exec_rsp_error {i : Instr} {s t : State} {e : ErrorKind} (h : exec i s = .next t)
    (hr : t.rsp = some (.error e)) :
    (e = .unknownDevice ∧ (s.life = .failed ∨ i = .identify)) ∨
    (∃ a, e = .addressOutOfRange a ∧ pageAddress? (opOfRow i) = some a ∧ 2 ^ 24 ≤ a) ∨
    (∃ x, e = .transportFailure x ∧ s.answer = .err x ∧ ∀ raw, opOfRow i ≠ .decodeStatus raw) := by
  cases exec_outcome_of_eq h with
  | failed hl => cases hr; exact .inl ⟨rfl, .inl hl⟩
  | unknown hl hi ha hk => cases hr; exact .inl ⟨rfl, .inr hi⟩
  | raised hl hi hb =>
    cases hr
    obtain ⟨a, hp, ha, he⟩ := build_eq_error_iff.1 hb
    exact .inr (.inl ⟨a, he, hp, ha⟩)
  | transportFailed hl hb hi ha =>
    cases hr
    refine .inr (.inr ⟨_, rfl, ha, fun raw ho => ?_⟩)
    rw [ho] at hb
    cases hb
  | sent hl hi hb ha => obtain hd | hd := rowResponse_cases (Option.some.inj hr) <;> cases hd
  | _ => cases hr

/-! ## The statements -/

/-- Settles O53: the codes, and the result bit of each response. -/
theorem errorCodesAndResultBit : Obligations.ErrorCodesAndResultBit := by
  refine ⟨fun _ => rfl, fun _ => rfl, rfl, rfl, rfl, fun r => ?_⟩
  cases r with
  | error e => cases e <;> simp [rspFailed, rspErr, errorCode]
  | _ => simp [rspFailed, rspErr]

/-- Settles O54: each kind of response carries its own fields only, and comes from its own operation. -/
theorem responseFieldsBelongToTheirOperations : Obligations.ResponseFieldsBelongToTheirOperations := by
  intro i s t r h hr
  cases r with
  | done => exact ⟨nofun, nofun, nofun, nofun, nofun⟩
  | error e => exact ⟨nofun, nofun, nofun, nofun, nofun⟩
  | data rxdata =>
    refine ⟨fun bytes hbytes => ?_, nofun, nofun, nofun, nofun⟩
    cases hbytes
    exact ⟨rfl, exec_rsp_data h hr⟩
  | ecc result =>
    obtain ⟨raw, ho, he⟩ := exec_rsp_ecc h hr
    cases result with
    | uncorrectable => exact ⟨nofun, fun _ => ⟨raw, ho⟩, fun _ => rfl, nofun, nofun⟩
    | corrected count =>
      refine ⟨nofun, fun _ => ⟨raw, ho⟩, nofun, fun n hn => ?_, nofun⟩
      cases hn
      exact ⟨rfl, eccDecode_corrected_le he⟩
  | identified variant k rxdata =>
    obtain ⟨hi, hv, hl, hlen, hrow⟩ := exec_rsp_identified h hr
    refine ⟨fun bytes hbytes => ?_, nofun, nofun, nofun, fun v k' hvk => ?_⟩
    · cases hbytes
      exact ⟨rfl, buildReadId s.cfg s.variant, 2, by rw [hi]; rfl, by simp [buildReadId], hlen⟩
    · cases hvk
      exact ⟨hi, hv, hl, hrow⟩

/-- Settles O55: by the outcome that has the error. -/
theorem whichOperationReturnsWhichError : Obligations.WhichOperationReturnsWhichError :=
  fun _ _ _ _ h hr => exec_rsp_error h hr

/-- Settles O56: of the three things an instruction can do to LIFE, only one ends in FAILED. -/
theorem onlyIdentifyFailsAnInstance : Obligations.OnlyIdentifyFailsAnInstance := by
  intro i s t h ht hs
  obtain ⟨hl, -⟩ | ⟨hi, hl, ⟨ha, -⟩ | ⟨-, -, hr⟩⟩ := exec_life_variant h
  · exact absurd (hl.symm.trans ht) hs
  · rw [ha] at ht; cases ht
  · exact ⟨hi, hl, hr⟩

/-- Settles O34: the shape of a row's descriptor, and the errors that instructions raise. -/
theorem builtDescriptorsPassTheChecks : Obligations.BuiltDescriptorsPassTheChecks := by
  refine ⟨fun c mode v op d hb => ?_, fun i s t h => ⟨fun hr => ?_, fun hr => ?_⟩⟩
  · obtain ⟨hlow, hhigh⟩ := build_commandBytes_length hb
    obtain ⟨hone, htx, hrx⟩ := build_payloads hb
    obtain ⟨-, hwidth⟩ := encode_eq_ofRow (encode_selectRow_of_build hb)
    rw [opOfRow_selectRow] at hwidth
    exact ⟨hlow, hhigh, hone, htx, hrx, hwidth⟩
  all_goals obtain ⟨he, -⟩ | ⟨_, he, -⟩ | ⟨_, he, -⟩ := exec_rsp_error h hr <;> cases he

end Sys2Proof.Machine
end

section
/-! SUPPORT. Proofs of the Command Builder's cache operations and of ReadId (40_builder_simple.md,
42_builder_cache.md), and of what reads the Bus Mode (R30, R89, R118). -/

namespace Sys2Proof.Machine

/-- ReadId's receive leg is two bytes for every variant (R115). -/
theorem build_readId (c : Cfg) (mode : BusMode) (v : Variant) :
    build c mode v .readId = some (.ok ⟨.b1 c.opcReadId, none, some 2, .one, .one⟩) := by
  simp [build, buildReadId, layoutL1]

/-- Settles O28: ReadId is a builder row with a receive leg. -/
theorem readIdCompletes : Obligations.ReadIdCompletes :=
  fun s _ _ => ⟨build_readId _ _ _, fun _ hl ha =>
    exec_of_build_ok (i := .readId) Instr.noConfusion (build_readId s.cfg s.mode s.variant) hl ha⟩

/-- StoreCache's descriptor, its offset bytes in numbers (R141). -/
theorem buildStoreCache_eq (c : Cfg) (o : Offset) (buf : List Byte) (mode : BusMode) :
    buildStoreCache c o buf mode =
      ⟨.b3 (if mode.txQuad then c.opcProgramLoadX4 else c.opcProgramLoad)
          (BitVec.ofNat 8 (o.toNat / 256)) (BitVec.ofNat 8 o.toNat),
        some buf, none, if mode.txQuad then .four else .one, .one⟩ := by
  rw [buildStoreCache, layoutL3, packOffset, byteAt_eight, byteAt_zero]

/-- Settles O30: both rows are StoreCache, whose descriptor is sent and has no receive leg. -/
theorem storeCacheCompletes : Obligations.StoreCacheCompletes := by
  intro s v i o buf rx hi
  have hrow : i ≠ .identify ∧ opOfRow i = .storeCache o buf ∧ rowResponse i = noData := by
    simp only [List.mem_cons, List.not_mem_nil, or_false] at hi
    obtain rfl | rfl := hi <;> exact ⟨Instr.noConfusion, rfl, rfl⟩
  obtain ⟨hne, hop, hresp⟩ := hrow
  have hb (v' : Variant) : build s.cfg s.mode v' (opOfRow i) =
      some (.ok (buildStoreCache s.cfg o buf s.mode)) := by rw [hop]; rfl
  refine ⟨by rw [hb, buildStoreCache_eq], fun hl ha => ?_⟩
  rw [exec_of_build_ok hne (hb _) hl ha, hresp, buildStoreCache_eq]
  rfl

/-- ReadCache's descriptor by the stated priority: quad, then dual, then plain (R143). -/
theorem buildReadCache_eq {c : Cfg} {o : Offset} {mode : BusMode} {cmd : CommandBytes} {w : Lanes}
    (h : (cmd, w) =
      if mode.rxQuad then (layoutL5R c.opcReadCacheX4 o, Lanes.four)
      else if mode.rxDual then (layoutL5R c.opcReadCacheX2 o, Lanes.two)
      else (layoutL4R c.opcReadCache o, Lanes.one)) (len : Nat) :
    buildReadCache c o len mode = ⟨cmd, none, some len, .one, w⟩ := by
  rw [buildReadCache, readCacheBytes, readCacheWidth]
  split at h
  · next hq => cases h; simp only [if_pos hq]
  · next hq =>
    split at h
    · next hd => cases h; simp only [if_neg hq, if_pos hd]
    · next hd => cases h; simp only [if_neg hq, if_neg hd]

/-- Settles O31: the three rows are ReadCache, whose descriptor is sent and has a receive leg. -/
theorem readCacheCompletes : Obligations.ReadCacheCompletes := by
  intro s v i o len rx hi oh ol hoh hol cmd w hcmd
  have hrow : i ≠ .identify ∧ opOfRow i = .readCache o len ∧ rowResponse i = .data := by
    simp only [List.mem_cons, List.not_mem_nil, or_false] at hi
    obtain rfl | rfl | rfl := hi <;> exact ⟨Instr.noConfusion, rfl, rfl⟩
  obtain ⟨hne, hop, hresp⟩ := hrow
  rw [← byteAt_eight] at hoh
  rw [← byteAt_zero] at hol
  subst hoh hol
  have hb (v' : Variant) : build s.cfg s.mode v' (opOfRow i) =
      some (.ok ⟨cmd, none, some len, .one, w⟩) := by
    rw [hop, ← buildReadCache_eq hcmd]
    rfl
  refine ⟨hb v, fun hl ha => ?_⟩
  rw [exec_of_build_ok hne (hb _) hl ha, hresp]
  rfl

/-- `Build` reads of the Bus Mode only TX_QUAD, for StoreCache, and the two receive flags, for ReadCache. -/
theorem build_mode_congr {op : Op} {m m' : BusMode}
    (hs : ∀ o buf, op = .storeCache o buf → m.txQuad = m'.txQuad)
    (hr : ∀ o len, op = .readCache o len → m.rxQuad = m'.rxQuad ∧ m.rxDual = m'.rxDual)
    (c : Cfg) (v : Variant) : build c m v op = build c m' v op := by
  cases op with
  | storeCache o buf => simp only [build, buildStoreCache, hs o buf rfl]
  | readCache o len =>
    obtain ⟨hq, hd⟩ := hr o len rfl
    simp only [build, buildReadCache, readCacheBytes, readCacheWidth, hq, hd]
  | _ => rfl

/-- Settles O32: the Bus Mode reaches an instruction through `Build` alone. -/
theorem busModeReachesOnlyTheCacheOperations : Obligations.BusModeReachesOnlyTheCacheOperations := by
  intro i s m h
  refine exec_sameEffect rfl rfl rfl rfl (build_mode_congr (fun o buf ho => ?_) (fun o len ho => ?_) _ _)
  · exact ((h (by rw [ho]; rfl)).1 o buf ho).symm
  · obtain ⟨hq, hd⟩ := (h (by rw [ho]; rfl)).2 o len ho
    exact ⟨hq.symm, hd.symm⟩

end Sys2Proof.Machine
end

section
/-! SUPPORT. Proofs of the step (10_state.md sections 1 and 2, 70_reset_and_hazards.md). -/

namespace Sys2Proof.Machine

/-! ## One equation per input -/

theorem step_of_not_wf {s : State} (hw : s.cfg.wf = false) : step s = .refused .badConfiguration := by
  simp [step, fetch, hw]

theorem step_idle {s : State} (hw : s.cfg.wf = true) (hp : s.pending = []) : step s = .next s := by
  simp [step, fetch, hw, hp]

theorem step_hardwareReset {s : State} {rest : List Input} (hw : s.cfg.wf = true)
    (hp : s.pending = .hardwareReset :: rest) :
    step s = .next (hardwareReset { s with pending := rest }) := by
  simp [step, fetch, hw, hp]

theorem step_of_decodeReq_error {s : State} {p : Presented} {rest : List Input} {why : ReqError}
    (hw : s.cfg.wf = true) (hp : s.pending = .request p :: rest) (hd : decodeReq s.cfg p.req = .error why) :
    step s = .refused (.noSuchRequest why) := by
  simp [step, fetch, fetchRequest, hw, hp, hd]

theorem step_of_decodeReq_ok {s : State} {p : Presented} {rest : List Input} {op : Op}
    (hw : s.cfg.wf = true) (hp : s.pending = .request p :: rest) (hd : decodeReq s.cfg p.req = .ok op) :
    step s = exec (selectRow op p.mode s.variant) (accept p rest s) := by
  simp [step, fetch, fetchRequest, hw, hp, hd]

/-! ## Reset, the idle step, and what is refused at the boundary -/

/-- Settles O1: the reset values, at power-on and of a hardware reset. -/
theorem resetLeavesUnattachedGeneric : Obligations.ResetLeavesUnattachedGeneric :=
  ⟨rfl, rfl, fun s => ⟨hardwareReset_life s, hardwareReset_variant s⟩⟩

/-- Settles O2: the step of a hardware reset. -/
theorem hardwareResetStep : Obligations.HardwareResetStep :=
  fun _ _ hw hp => step_hardwareReset hw hp

/-- Settles O3: UNATTACHED asks for Generic, the reset value of VARIANT. -/
theorem resetMeetsLifecycleInvariant : Obligations.ResetMeetsLifecycleInvariant :=
  resetLeavesUnattachedGeneric.2.1

/-- Settles O9: the step of a request that decodes. -/
theorem stepRunsTheDecodedRequest : Obligations.StepRunsTheDecodedRequest :=
  fun _ _ _ _ hw hp hd => step_of_decodeReq_ok hw hp hd

/-- Settles O10: the step with nothing pending. -/
theorem stepWithNothingPendingIsIdle : Obligations.StepWithNothingPendingIsIdle :=
  fun _ hw hp => step_idle hw hp

/-- Settles O12: each of the four breaks a constraint on the configuration. -/
theorem illFormedConfigurationIsRefused : Obligations.IllFormedConfigurationIsRefused := by
  intro s h
  refine step_of_not_wf (Bool.eq_false_iff.2 fun hw => ?_)
  simp only [Cfg.wf, Config.addrW, Bool.and_eq_true, decide_eq_true_eq] at hw
  obtain ⟨hshift, haddr, hsentinel, hopcodes⟩ := hw
  obtain h | h | h | h := h
  · exact absurd hshift (Nat.not_le.2 h)
  · exact hsentinel h
  · exact absurd haddr (Nat.not_le.2 h)
  · exact h hopcodes

/-- A selector of 13 or more selects no operation (R101). -/
theorem opOfReq_reserved {r : Req} (h : 13 ≤ r.op.toNat) : opOfReq r = none := by
  unfold opOfReq
  split
  case h_14 => rfl
  all_goals omega

/-- Settles O11: a reserved selector selects no operation. -/
theorem reservedSelectorIsRefused : Obligations.ReservedSelectorIsRefused :=
  fun _ _ _ hw hp hsel => step_of_decodeReq_error hw hp (by rw [decodeReq, opOfReq_reserved hsel])

/-! ## Unread request fields -/

/-- A selector reads the operands of its operation and no others (R100). -/
theorem opOfReq_congr {r r' : Req} (hop : r'.op = r.op)
    (haddr : r.op.toNat ∈ [5, 6, 7] → r'.addr = r.addr)
    (hreg : r.op.toNat ∈ [1, 2] → r'.reg = r.reg)
    (hvalue : r.op.toNat ∈ [2] → r'.value = r.value)
    (hoffset : r.op.toNat ∈ [8, 9] → r'.offset = r.offset)
    (hlen : r.op.toNat ∈ [8, 9] → r'.len = r.len)
    (hbuf : r.op.toNat ∈ [8] → r'.buf = r.buf)
    (hraw : r.op.toNat ∈ [11] → r'.raw = r.raw) : opOfReq r' = opOfReq r := by
  unfold opOfReq
  rw [hop]
  split
  case h_2 h => rw [hreg (by simp [h])]
  case h_3 h => rw [hreg (by simp [h]), hvalue (by simp [h])]
  case h_6 h => rw [haddr (by simp [h])]
  case h_7 h => rw [haddr (by simp [h])]
  case h_8 h => rw [haddr (by simp [h])]
  case h_9 h => rw [hoffset (by simp [h]), hbuf (by simp [h])]
  case h_10 h => rw [hoffset (by simp [h]), hlen (by simp [h])]
  case h_12 h => rw [hraw (by simp [h])]
  all_goals rfl

/-- Only selector 8 selects StoreCache (R100). -/
theorem selector_of_storeCache {r : Req} {o : Offset} {buf : List Byte}
    (h : opOfReq r = some (.storeCache o buf)) : r.op.toNat = 8 := by
  unfold opOfReq at h
  split at h
  case h_9 hsel => exact hsel
  all_goals cases h

/-- The check of the buffer's length reads the length of a StoreCache record only. -/
theorem bufMatchesLen_congr {op : Op} {r r' : Req}
    (h : ∀ o buf, op = .storeCache o buf → r'.len = r.len) : bufMatchesLen op r' = bufMatchesLen op r := by
  cases op with
  | storeCache o buf => rw [bufMatchesLen, bufMatchesLen, h o buf rfl]
  | _ => rfl

theorem decodeReq_congr {c : Cfg} {r r' : Req} (hsel : r'.op = r.op) (hop : opOfReq r' = opOfReq r)
    (hlen : r.op.toNat = 8 → r'.len = r.len) : decodeReq c r' = decodeReq c r := by
  unfold decodeReq
  rw [hop, hsel]
  cases ho : opOfReq r with
  | none => rfl
  | some op =>
    have hb : bufMatchesLen op r' = bufMatchesLen op r :=
      bufMatchesLen_congr fun o buf he => hlen (selector_of_storeCache (he ▸ ho))
    simp only [hb]

/-- A step reads a presented record through the decoder only: two requests that decode alike and leave the
same state to run in give the same step. -/
theorem step_congr_req {s s' : State} {p p' : Presented} {rest : List Input}
    (hp : s.pending = .request p :: rest) (hp' : s'.pending = .request p' :: rest)
    (hrun : accept p' rest s' = accept p rest s)
    (hdec : decodeReq s.cfg p'.req = decodeReq s.cfg p.req) : step s' = step s := by
  have hc : s'.cfg = s.cfg := by simpa using congrArg State.cfg hrun
  have hm : p'.mode = p.mode := by simpa using congrArg State.mode hrun
  have hv : s'.variant = s.variant := by simpa using congrArg State.variant hrun
  cases hw : s.cfg.wf with
  | false => rw [step_of_not_wf hw, step_of_not_wf (hc ▸ hw)]
  | true =>
    cases hd : decodeReq s.cfg p.req with
    | error why =>
      rw [step_of_decodeReq_error hw hp hd, step_of_decodeReq_error (hc ▸ hw) hp' (hc ▸ hdec.trans hd)]
    | ok op =>
      rw [step_of_decodeReq_ok hw hp hd, step_of_decodeReq_ok (hc ▸ hw) hp' (hc ▸ hdec.trans hd),
        hrun, hm, hv]

/-- Settles O13: the decoder reads the operands of the selected operation only. -/
theorem unreadRequestFieldsHaveNoEffect : Obligations.UnreadRequestFieldsHaveNoEffect := by
  intro s r r' mode answer rest hop haddr hreg hvalue hoffset hlen hbuf hraw
  exact step_congr_req rfl rfl rfl (decodeReq_congr hop
    (opOfReq_congr hop haddr hreg hvalue hoffset hlen hbuf hraw) fun h => hlen (by simp [h]))

/-! ## Answers and stops -/

/-- An operation that has a meaning in the state is answered if the transport returns (R67). -/
theorem exec_answers {op : Op} {s : State} (h : Answerable op s) (ha : s.answer ≠ .never)
    (mode : BusMode) : ∃ t, exec (selectRow op mode s.variant) s = .next t := by
  have hout := exec_outcome (selectRow op mode s.variant) s
  generalize exec (selectRow op mode s.variant) s = r at hout
  cases hout with
  | stuck hl hb hi hans => exact absurd hans ha
  | noPolicy hl ho hv =>
    rw [opOfRow_selectRow] at ho
    subst ho
    exact absurd hv (h.resolve_left hl)
  | attached hl hi =>
    rw [selectRow_eq_identify] at hi
    subst hi
    exact absurd hl (h.resolve_left (by simp [hl]))
  | _ => exact ⟨_, rfl⟩

/-- Settles O14: the decoded request is answered, and an answer has a response and leaves the later inputs. -/
theorem everyAnswerableRequestIsAnswered : Obligations.EveryAnswerableRequestIsAnswered := by
  intro s p rest op hw hp hd hans ha
  obtain ⟨t, ht⟩ := exec_answers (s := accept p rest s) hans ha p.mode
  obtain ⟨r, hr⟩ := Option.ne_none_iff_exists'.1 (exec_rsp_ne_none ht)
  obtain ⟨-, -, -, hpending⟩ := exec_sameSurroundings ht
  exact ⟨t, r, (step_of_decodeReq_ok hw hp hd).trans ht, hr, hpending⟩

/-- Everything a step can do: refuse the configuration; idle; reset; refuse a record that names no request;
or run the row of the decoded one. -/
theorem step_cases (s : State) :
    (s.cfg.wf = false ∧ step s = .refused .badConfiguration) ∨
    (s.pending = [] ∧ step s = .next s) ∨
    (∃ rest, s.pending = .hardwareReset :: rest ∧
      step s = .next (hardwareReset { s with pending := rest })) ∨
    (∃ p rest why, s.pending = .request p :: rest ∧ decodeReq s.cfg p.req = .error why ∧
      step s = .refused (.noSuchRequest why)) ∨
    (∃ p rest op, s.pending = .request p :: rest ∧ decodeReq s.cfg p.req = .ok op ∧
      step s = exec (selectRow op p.mode s.variant) (accept p rest s)) := by
  cases hw : s.cfg.wf with
  | false => exact .inl ⟨rfl, step_of_not_wf hw⟩
  | true =>
    cases hp : s.pending with
    | nil => exact .inr (.inl ⟨rfl, step_idle hw hp⟩)
    | cons input rest =>
      cases input with
      | hardwareReset => exact .inr (.inr (.inl ⟨rest, rfl, step_hardwareReset hw hp⟩))
      | request p =>
        cases hd : decodeReq s.cfg p.req with
        | error why =>
          exact .inr (.inr (.inr (.inl ⟨p, rest, why, rfl, hd, step_of_decodeReq_error hw hp hd⟩)))
        | ok op =>
          exact .inr (.inr (.inr (.inr ⟨p, rest, op, rfl, hd, step_of_decodeReq_ok hw hp hd⟩)))

/-- A step faults only for a call that does not return, at an instance that is not FAILED (R157, U8). -/
theorem step_fault {s : State} {f : Fault} (h : step s = .fault f) :
    s.life ≠ .failed ∧ ∃ p rest, s.pending = .request p :: rest ∧ p.answer = .never := by
  obtain ⟨-, hs⟩ | ⟨-, hs⟩ | ⟨_, -, hs⟩ | ⟨_, _, _, -, -, hs⟩ | ⟨p, rest, op, hp, hd, hs⟩ := step_cases s
  iterate 4 cases hs.symm.trans h
  cases exec_outcome_of_eq (hs.symm.trans h) with
  | stuck hl hb hi ha => exact ⟨hl, p, rest, hp, ha⟩

/-- Settles O15: by what a step can do, and the outcomes of the row it runs. -/
theorem stepStopsOnlyForNamedReasons : Obligations.StepStopsOnlyForNamedReasons := by
  refine fun s => ⟨fun f hf => step_fault hf, fun r hr => ?_⟩
  obtain ⟨hw, hs⟩ | ⟨-, hs⟩ | ⟨_, -, hs⟩ | ⟨p, rest, why, hp, hd, hs⟩ | ⟨p, rest, op, hp, hd, hs⟩ :=
    step_cases s
  · cases hs.symm.trans hr
    exact .inl ⟨rfl, hw⟩
  · cases hs.symm.trans hr
  · cases hs.symm.trans hr
  · cases hs.symm.trans hr
    exact .inr (.inl ⟨p, rest, why, hp, hd, rfl⟩)
  · cases exec_outcome_of_eq (hs.symm.trans hr) with
    | noPolicy hl ho hv =>
      rw [opOfRow_selectRow] at ho
      subst ho
      exact .inr (.inr (.inl ⟨p, rest, _, hp, hd, hv, hl, rfl⟩))
    | attached hl hi =>
      rw [selectRow_eq_identify] at hi
      subst hi
      exact .inr (.inr (.inr ⟨p, rest, hp, hd, hl, rfl⟩))

/-! ## The lifecycle -/

/-- The invariant speaks of LIFE, VARIANT and the identification table only. -/
theorem LifecycleInv.congr {s t : State} (h : LifecycleInv s) (hl : t.life = s.life)
    (hv : t.variant = s.variant) (hc : t.cfg = s.cfg) : LifecycleInv t := by
  unfold LifecycleInv at h ⊢
  rwa [hl, hv, hc]

/-- The one instruction that writes LIFE attaches to the variant of a row, or fails an instance that holds
Generic. -/
theorem exec_keeps_lifecycleInv {i : Instr} {s t : State} (hinv : LifecycleInv s)
    (h : exec i s = .next t) : LifecycleInv t := by
  obtain ⟨hc, -⟩ := exec_sameSurroundings h
  unfold LifecycleInv
  obtain ⟨hl, hv⟩ | ⟨-, hl, ⟨ht, hrow⟩ | ⟨ht, hv, -⟩⟩ := exec_life_variant h
  · exact hinv.congr hl hv hc
  · rw [ht, hc]
    exact hrow
  · unfold LifecycleInv at hinv
    rw [hl] at hinv
    rw [ht]
    exact hv.trans hinv

/-- Settles O4: the idle step changes nothing, a hardware reset leaves UNATTACHED and Generic, and an
instruction keeps the invariant. -/
theorem stepKeepsLifecycleInvariant : Obligations.StepKeepsLifecycleInvariant := by
  intro s t hinv h
  obtain ⟨-, rfl⟩ | ⟨rest, -, rfl⟩ | ⟨p, rest, op, -, -, he⟩ := step_next h
  · exact hinv
  · exact hardwareReset_variant _
  · exact exec_keeps_lifecycleInv (s := accept p rest s) hinv he

/-- Settles O5: by what an instruction can do to LIFE and VARIANT. -/
theorem lifecycleTransitions : Obligations.LifecycleTransitions := by
  intro s t h hreset
  obtain ⟨-, rfl⟩ | ⟨rest, hp, -⟩ | ⟨p, rest, op, -, -, he⟩ := step_next h
  · exact .inl ⟨rfl, rfl⟩
  · exact absurd (by rw [hp]; rfl) hreset
  · obtain hk | ⟨-, hl, ⟨ht, -⟩ | ⟨ht, hv, -⟩⟩ := exec_life_variant he
    · exact .inl hk
    · exact .inr (.inl ⟨hl, ht⟩)
    · exact .inr (.inr ⟨hl, ht, hv⟩)

end Sys2Proof.Machine
end

section
/-! SUPPORT. Proofs of whole runs: what lasts for the instance's lifetime, and what a run leaves on the bus
(10_state.md section 2, 20_memory.md section 6). -/

namespace Sys2Proof.Machine

/-! ## What a step does to the inputs, the configuration and the bus log -/

/-- A step takes the head of the inputs. -/
theorem step_pending {s t : State} (h : step s = .next t) : t.pending = s.pending.tail := by
  obtain ⟨hp, rfl⟩ | ⟨rest, hp, rfl⟩ | ⟨p, rest, op, hp, -, he⟩ := step_next h
  · rw [hp]; rfl
  · rw [hp]; rfl
  · obtain ⟨-, -, -, hpending⟩ := exec_sameSurroundings he
    rw [hpending, hp]
    rfl

theorem step_cfg {s t : State} (h : step s = .next t) : t.cfg = s.cfg := by
  obtain ⟨-, rfl⟩ | ⟨rest, -, rfl⟩ | ⟨p, rest, op, -, -, he⟩ := step_next h
  · rfl
  · rfl
  · exact (exec_sameSurroundings he).1

/-- A step leaves the bus log as it is, or adds a built descriptor's one call; the second only at an instance
that is not FAILED. -/
theorem step_busLog {s t : State} (h : step s = .next t) :
    t.busLog = s.busLog ∨
      s.life ≠ .failed ∧ ∃ mode op d, build s.cfg mode s.variant op = some (.ok d) ∧
        t.busLog = s.busLog ++ [legs d] := by
  obtain ⟨-, rfl⟩ | ⟨rest, -, rfl⟩ | ⟨p, rest, op, -, -, he⟩ := step_next h
  · exact .inl rfl
  · exact .inl rfl
  · obtain hk | ⟨hl, d, hb, hk⟩ := exec_busLog he
    · exact .inl hk
    · exact .inr ⟨hl, _, _, d, hb, hk⟩

/-! ## A property that every step keeps -/

/-- What every step keeps, every run keeps. -/
theorem run_keeps {P : State → Prop} (hstep : ∀ s t, P s → step s = .next t → P t) {n : Nat}
    {s t : State} (hs : P s) (h : Sys2Proof.core.run n s = .next t) : P t := by
  induction n generalizing s with
  | zero => cases h; exact hs
  | succ n ih =>
    obtain ⟨u, hu, hrun⟩ := run_succ_next h
    exact ih (hstep s u hs hu) hrun

/-- The instance holds `l` and `v`, and no hardware reset is to come. -/
def Holds (l : Life) (v : Variant) (s : State) : Prop :=
  s.life = l ∧ s.variant = v ∧ Input.hardwareReset ∉ s.pending

/-- Without a hardware reset, a step keeps LIFE and VARIANT of an instance that has left UNATTACHED. -/
theorem step_keeps_holds {l : Life} {v : Variant} (hl : l ≠ .unattached) {s t : State}
    (hs : Holds l v s) (h : step s = .next t) : Holds l v t := by
  obtain ⟨hlife, hvariant, hreset⟩ := hs
  have htail : Input.hardwareReset ∉ t.pending := by
    rw [step_pending h]
    exact mt List.mem_of_mem_tail hreset
  obtain ⟨-, rfl⟩ | ⟨rest, hp, -⟩ | ⟨p, rest, op, -, -, he⟩ := step_next h
  · exact ⟨hlife, hvariant, htail⟩
  · exact absurd (by rw [hp]; exact List.mem_cons_self) hreset
  · obtain ⟨hl', hv'⟩ := exec_keeps_life_variant (s := accept p rest s) (hlife.trans_ne hl) he
    exact ⟨hl'.trans hlife, hv'.trans hvariant, htail⟩

/-- Settles O6: every step keeps LIFE and VARIANT of an instance that has left UNATTACHED. -/
theorem identificationLastsForTheLifetime : Obligations.IdentificationLastsForTheLifetime := by
  intro n s t hrun hl hreset
  obtain ⟨hlife, hvariant, -⟩ := run_keeps (P := Holds s.life s.variant)
    (fun _ _ => step_keeps_holds hl) ⟨rfl, rfl, hreset⟩ hrun
  exact ⟨hlife, hvariant⟩

/-- The instance is FAILED with VARIANT `v` for good, and `log` is what has been on the bus. -/
def Silent (v : Variant) (log : List (List Leg)) (s : State) : Prop :=
  Holds .failed v s ∧ s.busLog = log

theorem step_keeps_silent {v : Variant} {log : List (List Leg)} {s t : State} (hs : Silent v log s)
    (h : step s = .next t) : Silent v log t := by
  obtain ⟨hholds, hlog⟩ := hs
  refine ⟨step_keeps_holds Life.noConfusion hholds h, ?_⟩
  obtain hk | ⟨hl, -⟩ := step_busLog h
  · exact hk.trans hlog
  · exact absurd hholds.1 hl

/-- Settles O7: every step of a FAILED instance keeps it FAILED and leaves the bus log. -/
theorem failedInstanceIsSilent : Obligations.FailedInstanceIsSilent := by
  intro n s t hrun hl hreset
  exact (run_keeps (P := Silent s.variant s.busLog) (fun _ _ => step_keeps_silent)
    ⟨⟨hl, rfl, hreset⟩, rfl⟩ hrun).2

/-! ## Whole transactions -/

/-- A call is a whole transaction: a command leg with a command on one lane, then at most one data leg. -/
def WholeTransaction (call : List Leg) : Prop :=
  ∃ bytes data, call = Leg.tx bytes .one :: data ∧ bytes ≠ [] ∧ data.length ≤ 1

/-- The legs of a built descriptor are a whole transaction (R152, R156). -/
theorem wholeTransaction_legs {c : Cfg} {mode : BusMode} {v : Variant} {op : Op} {d : Descriptor}
    (h : build c mode v op = some (.ok d)) : WholeTransaction (legs d) := by
  refine ⟨_, txLeg d ++ rxLeg d, rfl, build_commandBytes_ne_nil h, ?_⟩
  obtain ⟨hone | hone, -⟩ := build_payloads h
  · cases hrx : d.rxPayload <;> simp [txLeg, rxLeg, hone, hrx]
  · cases htx : d.txPayload <;> simp [txLeg, rxLeg, hone, htx]

/-- The bus log of `t` is that of `s` and at most `n` whole transactions after it, and the configuration is
the same. -/
def Extends (n : Nat) (s t : State) : Prop :=
  t.cfg = s.cfg ∧
    ∃ calls, t.busLog = s.busLog ++ calls ∧ calls.length ≤ n ∧ ∀ call ∈ calls, WholeTransaction call

theorem step_extends {s t : State} (h : step s = .next t) : Extends 1 s t := by
  refine ⟨step_cfg h, ?_⟩
  obtain hk | ⟨-, mode, op, d, hb, hk⟩ := step_busLog h
  · exact ⟨[], by simp [hk], Nat.zero_le 1, nofun⟩
  · exact ⟨[legs d], hk, Nat.le_refl 1, List.forall_mem_singleton.2 (wholeTransaction_legs hb)⟩

theorem Extends.trans {m n : Nat} {s t u : State} (hst : Extends m s t) (htu : Extends n t u) :
    Extends (m + n) s u := by
  obtain ⟨hc, calls, hlog, hlen, hwhole⟩ := hst
  obtain ⟨hc', calls', hlog', hlen', hwhole'⟩ := htu
  refine ⟨hc'.trans hc, calls ++ calls', ?_, ?_, List.forall_mem_append.2 ⟨hwhole, hwhole'⟩⟩
  · rw [hlog', hlog, List.append_assoc]
  · rw [List.length_append]
    exact Nat.add_le_add hlen hlen'

theorem run_extends {n : Nat} {s t : State} (h : Sys2Proof.core.run n s = .next t) : Extends n s t := by
  induction n generalizing s with
  | zero => cases h; exact ⟨rfl, [], by simp, Nat.le_refl 0, nofun⟩
  | succ n ih =>
    obtain ⟨u, hu, hrun⟩ := run_succ_next h
    rw [Nat.add_comm]
    exact (step_extends hu).trans (ih hrun)

/-- Settles O8: a run appends what its steps append. -/
theorem runAppendsWholeTransactionsInOrder : Obligations.RunAppendsWholeTransactionsInOrder :=
  fun _ _ _ h => run_extends h

end Sys2Proof.Machine
end

section
/-! SUPPORT. Proofs of the request encoding (10_state.md section 1, 30_encoding.md section 6). -/

namespace Sys2Proof

/-- The record of an operation selects it, with every operand. -/
@[simp] theorem opOfReq_encodeReq (op : Op) : opOfReq (encodeReq op) = some op := by cases op <;> rfl

/-- The record of StoreCache holds the length of its buffer. -/
theorem bufMatchesLen_encodeReq (op : Op) : bufMatchesLen op (encodeReq op) = true := by
  cases op with
  | storeCache o buf => exact decide_eq_true rfl
  | _ => rfl

theorem decodeReq_encodeReq {c : Cfg} {op : Op} (h : op.wf c = true) :
    decodeReq c (encodeReq op) = .ok op := by
  simp only [decodeReq, opOfReq_encodeReq, h, bufMatchesLen_encodeReq, if_true]

/-- Settles O19: records, and rows with their operations. -/
theorem requestEncodingRoundTrips : Obligations.RequestEncodingRoundTrips :=
  ⟨fun _ _ => decodeReq_encodeReq, opOfRow_selectRow, fun _ v h => selectRow_opOfRow h v⟩

/-- Settles O20: by the flags that the operation's condition reads. -/
theorem busModeAndVariantSelectTheRow : Obligations.BusModeAndVariantSelectTheRow := by
  intro mode v o buf len raw
  refine ⟨?_, ?_, ?_, ?_, ?_, fun hv => by rw [hv]; rfl, fun hv => by rw [hv]; rfl⟩
  · rw [selectRow_storeCache]
    cases mode.txQuad <;> simp
  · rw [selectRow_storeCache]
    cases mode.txQuad <;> simp
  all_goals
    rw [selectRow_readCache]
    cases mode.rxQuad <;> cases mode.rxDual <;> simp

end Sys2Proof
end

section
/-! SUPPORT. Proofs of the command encoding and its inverse (30_encoding.md sections 1 to 4). -/

namespace Sys2Proof

/-! ## Operand bytes -/

theorem CommandBytes.toList_injective {a b : CommandBytes} (h : a.toList = b.toList) : a = b := by
  cases a <;> cases b <;> cases h <;> rfl

theorem unpackOffset_packOffset (o : Offset) :
    Machine.unpackOffset (Machine.packOffset o).1 (Machine.packOffset o).2 = o := by
  rw [Machine.unpackOffset, Machine.packOffset_toNat, BitVec.ofNat_toNat, BitVec.setWidth_eq]

theorem packOffset_unpackOffset (oh ol : Byte) :
    Machine.packOffset (Machine.unpackOffset oh ol) = (oh, ol) := by
  have hh : oh.toNat < 256 := oh.isLt
  have hl : ol.toNat < 256 := ol.isLt
  have hv : (Machine.unpackOffset oh ol).toNat = oh.toNat * 256 + ol.toNat := by
    rw [Machine.unpackOffset, BitVec.toNat_ofNat]
    omega
  refine Prod.ext (BitVec.eq_of_toNat_eq ?_) (BitVec.eq_of_toNat_eq ?_) <;>
    simp only [Machine.packOffset, Machine.byteAt_toNat, hv, Nat.shiftRight_eq_div_pow] <;> omega

/-- The three bytes of an address are those it was read from (R84). -/
theorem byteAt_unpackAddr (a2 a1 a0 : Byte) :
    Machine.byteAt (Machine.unpackAddr a2 a1 a0) 16 = a2 ∧
      Machine.byteAt (Machine.unpackAddr a2 a1 a0) 8 = a1 ∧
      Machine.byteAt (Machine.unpackAddr a2 a1 a0) 0 = a0 := by
  have h2 : a2.toNat < 256 := a2.isLt
  have h1 : a1.toNat < 256 := a1.isLt
  have h0 : a0.toNat < 256 := a0.isLt
  refine ⟨BitVec.eq_of_toNat_eq ?_, BitVec.eq_of_toNat_eq ?_, BitVec.eq_of_toNat_eq ?_⟩ <;>
    simp only [Machine.unpackAddr, Machine.byteAt_toNat, Nat.shiftRight_eq_div_pow] <;> omega

/-! ## From a layout to its reader -/

theorem operandsL3_packOffset (op : Byte) (f : Offset → Instr) (o : Offset) :
    operandsL3 op f [(Machine.packOffset o).1, (Machine.packOffset o).2] = .ok (f o) := by
  rw [operandsL3, unpackOffset_packOffset]

theorem operandsL4R_packOffset (op : Byte) (f : Offset → Instr) (o : Offset) :
    operandsL4R op f [Config.dummyByte, (Machine.packOffset o).1, (Machine.packOffset o).2] =
      .ok (f o) := by
  rw [operandsL4R, if_pos rfl, unpackOffset_packOffset]

theorem operandsL5R_packOffset (op : Byte) (f : Offset → Instr) (o : Offset) :
    operandsL5R op f [Config.dummyByte, (Machine.packOffset o).1, (Machine.packOffset o).2,
      Config.dummyByte] = .ok (f o) := by
  rw [operandsL5R, if_pos ⟨rfl, rfl⟩, unpackOffset_packOffset]

theorem operandsL4A_byteAt {a : Nat} (h : a < 2 ^ 24) (op : Byte) (f : Nat → Instr) :
    operandsL4A op f [Machine.byteAt a 16, Machine.byteAt a 8, Machine.byteAt a 0] = .ok (f a) := by
  rw [operandsL4A, Machine.unpackAddr_byteAt h]

/-- What the command bytes alone say of a row: the operands that travel in the data leg are zero or empty,
and Identify is ReadId (R180). -/
def commandOf : Instr → Instr
  | .writeRegister reg _ => .writeRegister reg 0
  | .storeCacheX1 o _ => .storeCacheX1 o []
  | .storeCacheX4 o _ => .storeCacheX4 o []
  | .readCacheX1 o _ => .readCacheX1 o 0
  | .readCacheX2 o _ => .readCacheX2 o 0
  | .readCacheX4 o _ => .readCacheX4 o 0
  | .identify => .readId
  | i => i

/-- The command of every row starts with the opcode of an entry of the inverse map, whose reader gives the
row back. -/
theorem encode_reads {c : Cfg} {i : Instr} {d : Descriptor} (h : encode c i = some d) :
    ∃ r ∈ commandRows c, ∃ rest,
      d.commandBytes.toList = r.opcode :: rest ∧ r.read rest = .ok (commandOf i) := by
  have entry (k : Nat) {r : CommandRow} (hk : (commandRows c)[k]? = some r) {rest : List Byte}
      (hl : d.commandBytes.toList = r.opcode :: rest) (hr : r.read rest = .ok (commandOf i)) :
      ∃ r ∈ commandRows c, ∃ rest,
        d.commandBytes.toList = r.opcode :: rest ∧ r.read rest = .ok (commandOf i) :=
    ⟨r, List.mem_of_getElem? hk, rest, hl, hr⟩
  cases i with
  | reset => cases h; exact entry 0 rfl rfl rfl
  | readRegister reg => cases h; exact entry 1 rfl rfl rfl
  | writeRegister reg value => cases h; exact entry 2 rfl rfl rfl
  | writeEnable => cases h; exact entry 3 rfl rfl rfl
  | writeDisable => cases h; exact entry 4 rfl rfl rfl
  | readId | identify => cases h; exact entry 5 rfl rfl rfl
  | writePage a =>
    obtain ⟨ha, rfl⟩ := Descriptor.ofPageRow_eq_some_iff.1 h
    exact entry 6 rfl rfl (operandsL4A_byteAt ha c.opcProgramExec .writePage)
  | loadPage a =>
    obtain ⟨ha, rfl⟩ := Descriptor.ofPageRow_eq_some_iff.1 h
    exact entry 7 rfl rfl (operandsL4A_byteAt ha c.opcPageRead .loadPage)
  | blockErase a =>
    obtain ⟨ha, rfl⟩ := Descriptor.ofPageRow_eq_some_iff.1 h
    exact entry 8 rfl rfl (operandsL4A_byteAt ha c.opcBlockErase .blockErase)
  | storeCacheX1 o buf =>
    cases h
    exact entry 9 rfl rfl (operandsL3_packOffset c.opcProgramLoad (fun o => .storeCacheX1 o []) o)
  | storeCacheX4 o buf =>
    cases h
    exact entry 10 rfl rfl (operandsL3_packOffset c.opcProgramLoadX4 (fun o => .storeCacheX4 o []) o)
  | readCacheX1 o len =>
    cases h
    exact entry 11 rfl rfl (operandsL4R_packOffset c.opcReadCache (fun o => .readCacheX1 o 0) o)
  | readCacheX2 o len =>
    cases h
    exact entry 12 rfl rfl (operandsL5R_packOffset c.opcReadCacheX2 (fun o => .readCacheX2 o 0) o)
  | readCacheX4 o len =>
    cases h
    exact entry 13 rfl rfl (operandsL5R_packOffset c.opcReadCacheX4 (fun o => .readCacheX4 o 0) o)
  | decodeStatusA raw | decodeStatusB raw => cases h

/-- With distinct opcodes, an entry of the inverse map is determined by its opcode (R83). -/
theorem commandRow_eq_of_opcode {c : Cfg} (hw : c.wf = true) {r r' : CommandRow}
    (hr : r ∈ commandRows c) (hr' : r' ∈ commandRows c) (h : r.opcode = r'.opcode) : r = r' := by
  have hmap : (commandRows c).map CommandRow.opcode = c.opcodes := rfl
  exact List.inj_on_of_nodup_map (hmap ▸ Cfg.nodup_of_wf hw) hr hr' h

/-- With distinct opcodes, the inverse map reads what follows an opcode with the reader of its entry. -/
theorem decodeCommand_of_mem {c : Cfg} (hw : c.wf = true) {r : CommandRow} (hr : r ∈ commandRows c)
    (rest : List Byte) : decodeCommand c (r.opcode :: rest) = r.read rest := by
  have hfind : (commandRows c).find? (fun r' => decide (r'.opcode = r.opcode)) = some r := by
    cases hf : (commandRows c).find? fun r' => decide (r'.opcode = r.opcode) with
    | none => exact absurd (decide_eq_true rfl) (List.find?_eq_none.1 hf r hr)
    | some r' =>
      have ho : r'.opcode = r.opcode := by simpa using List.find?_some hf
      rw [commandRow_eq_of_opcode hw (List.mem_of_find?_eq_some hf) hr ho]
  rw [decodeCommand, hfind]

/-- The data leg of a row's descriptor carries the operands that its command does not. -/
theorem withDataLeg_encode {c : Cfg} {i : Instr} {d : Descriptor} (hi : i ≠ .identify)
    (h : encode c i = some d) : withDataLeg (commandOf i) d.dataLeg? = .ok i := by
  cases i with
  | identify => exact absurd rfl hi
  | decodeStatusA raw | decodeStatusB raw => cases h
  | writePage a | loadPage a | blockErase a =>
    obtain ⟨-, rfl⟩ := Descriptor.ofPageRow_eq_some_iff.1 h
    rfl
  | _ => cases h; rfl

theorem decode_encode {c : Cfg} {i : Instr} {d : Descriptor} (hw : c.wf = true) (hi : i ≠ .identify)
    (h : encode c i = some d) : decode c d = .ok i := by
  obtain ⟨r, hr, rest, hl, hread⟩ := encode_reads h
  rw [decode, hl, decodeCommand_of_mem hw hr, hread]
  exact withDataLeg_encode hi h

/-- The encodable rows are those that have a descriptor. -/
theorem encodable_iff {c : Cfg} {i : Instr} : i.encodable = true ↔ ∃ d, encode c i = some d := by
  cases i with
  | decodeStatusA raw | decodeStatusB raw => exact ⟨nofun, nofun⟩
  | writePage a | loadPage a | blockErase a =>
    refine ⟨fun h => ⟨_, Descriptor.ofPageRow_of_lt (of_decide_eq_true h) _⟩, fun ⟨d, h⟩ => ?_⟩
    exact decide_eq_true (Descriptor.ofPageRow_eq_some_iff.1 h).1
  | _ => exact ⟨fun _ => ⟨_, rfl⟩, fun _ => rfl⟩

/-- Settles O21: the command is read by its own entry, the data leg gives the other operands back. -/
theorem descriptorDecodesToItsRow : Obligations.DescriptorDecodesToItsRow :=
  ⟨fun _ _ _ hw hi h => decode_encode hw hi h, fun _ _ => encodable_iff⟩

/-! ## From a reader to its layout -/

/-- The entry `r` of the inverse map reads only commands of the rows it gives, all of one length, whole and
without the operands of a data leg. -/
def ReadsRows (c : Cfg) (r : CommandRow) : Prop :=
  ∃ n, ∀ rest j, r.read rest = .ok j →
    rest.length = n ∧ commandOf j = j ∧
      ∃ d, encode c j = some d ∧ d.commandBytes.toList = r.opcode :: rest

theorem readsRows_L1 {c : Cfg} {op : Byte} {i : Instr} {leg : DataLeg} (hc : commandOf i = i)
    (he : encode c i = some (.ofRow (Machine.layoutL1 op) leg)) : ReadsRows c ⟨op, operandsL1 op i⟩ := by
  refine ⟨0, fun rest j h => ?_⟩
  obtain ⟨rfl, rfl⟩ := operandsL1_ok h
  exact ⟨rfl, hc, _, he, by rw [Descriptor.ofRow_commandBytes]; rfl⟩

theorem readsRows_L2 {c : Cfg} {op : Byte} {f : Byte → Instr} {leg : DataLeg}
    (hc : ∀ reg, commandOf (f reg) = f reg)
    (he : ∀ reg, encode c (f reg) = some (.ofRow (Machine.layoutL2 op reg) leg)) :
    ReadsRows c ⟨op, operandsL2 op f⟩ := by
  refine ⟨1, fun rest j h => ?_⟩
  obtain ⟨reg, rfl, rfl⟩ := operandsL2_ok h
  exact ⟨rfl, hc reg, _, he reg, by rw [Descriptor.ofRow_commandBytes]; rfl⟩

theorem readsRows_L3 {c : Cfg} {op : Byte} {f : Offset → Instr} {leg : DataLeg}
    (hc : ∀ o, commandOf (f o) = f o)
    (he : ∀ o, encode c (f o) = some (.ofRow (Machine.layoutL3 op o) leg)) :
    ReadsRows c ⟨op, operandsL3 op f⟩ := by
  refine ⟨2, fun rest j h => ?_⟩
  obtain ⟨oh, ol, rfl, rfl⟩ := operandsL3_ok h
  exact ⟨rfl, hc _, _, he _, by
    rw [Descriptor.ofRow_commandBytes, Machine.layoutL3, packOffset_unpackOffset]; rfl⟩

theorem readsRows_L4R {c : Cfg} {op : Byte} {f : Offset → Instr} {leg : DataLeg}
    (hc : ∀ o, commandOf (f o) = f o)
    (he : ∀ o, encode c (f o) = some (.ofRow (Machine.layoutL4R op o) leg)) :
    ReadsRows c ⟨op, operandsL4R op f⟩ := by
  refine ⟨3, fun rest j h => ?_⟩
  obtain ⟨oh, ol, rfl, rfl⟩ := operandsL4R_ok h
  exact ⟨rfl, hc _, _, he _, by
    rw [Descriptor.ofRow_commandBytes, Machine.layoutL4R, packOffset_unpackOffset]; rfl⟩

theorem readsRows_L5R {c : Cfg} {op : Byte} {f : Offset → Instr} {leg : DataLeg}
    (hc : ∀ o, commandOf (f o) = f o)
    (he : ∀ o, encode c (f o) = some (.ofRow (Machine.layoutL5R op o) leg)) :
    ReadsRows c ⟨op, operandsL5R op f⟩ := by
  refine ⟨4, fun rest j h => ?_⟩
  obtain ⟨oh, ol, rfl, rfl⟩ := operandsL5R_ok h
  exact ⟨rfl, hc _, _, he _, by
    rw [Descriptor.ofRow_commandBytes, Machine.layoutL5R, packOffset_unpackOffset]; rfl⟩

/-- The address that a page command is read as packs, into the bytes it was read from. -/
theorem readsRows_L4A {c : Cfg} {op : Byte} {f : Nat → Instr} (hc : ∀ a, commandOf (f a) = f a)
    (he : ∀ a, encode c (f a) = Descriptor.ofPageRow op a) : ReadsRows c ⟨op, operandsL4A op f⟩ := by
  refine ⟨3, fun rest j h => ?_⟩
  obtain ⟨a2, a1, a0, rfl, rfl⟩ := operandsL4A_ok h
  obtain ⟨h2, h1, h0⟩ := byteAt_unpackAddr a2 a1 a0
  refine ⟨rfl, hc _, _, (he _).trans (Descriptor.ofPageRow_of_lt (unpackAddr_lt a2 a1 a0) op), ?_⟩
  rw [h2, h1, h0]
  rfl

/-- Every entry reads only the commands of its own rows, all of one length. -/
theorem commandRows_readsRows (c : Cfg) : ∀ r ∈ commandRows c, ReadsRows c r := by
  simp only [commandRows, List.forall_mem_cons]
  exact ⟨readsRows_L1 rfl rfl, readsRows_L2 (fun _ => rfl) (fun _ => rfl),
    readsRows_L2 (fun _ => rfl) (fun _ => rfl), readsRows_L1 rfl rfl, readsRows_L1 rfl rfl,
    readsRows_L1 rfl rfl, readsRows_L4A (fun _ => rfl) (fun _ => rfl),
    readsRows_L4A (fun _ => rfl) (fun _ => rfl), readsRows_L4A (fun _ => rfl) (fun _ => rfl),
    readsRows_L3 (fun _ => rfl) (fun _ => rfl), readsRows_L3 (fun _ => rfl) (fun _ => rfl),
    readsRows_L4R (fun _ => rfl) (fun _ => rfl), readsRows_L5R (fun _ => rfl) (fun _ => rfl),
    readsRows_L5R (fun _ => rfl) (fun _ => rfl), nofun⟩

/-- The command bytes that the inverse map accepts are those of the row it reads. -/
theorem encode_of_decodeCommand {c : Cfg} {l : List Byte} {j : Instr} (h : decodeCommand c l = .ok j) :
    commandOf j = j ∧ ∃ d, encode c j = some d ∧ d.commandBytes.toList = l := by
  obtain ⟨r, hr, rest, rfl, hread⟩ := decodeCommand_ok h
  obtain ⟨n, hn⟩ := commandRows_readsRows c r hr
  exact (hn rest j hread).2

/-! ## What a row accepts as its data leg -/

theorem expectNoLeg_ok {i j : Instr} {leg : Option DataLeg} (h : expectNoLeg i leg = .ok j) :
    leg = some .none ∧ j = i := by
  unfold expectNoLeg at h
  split at h <;> cases h
  exact ⟨rfl, rfl⟩

theorem expectTxByte_ok {f : Byte → Instr} {j : Instr} {leg : Option DataLeg}
    (h : expectTxByte f leg = .ok j) : ∃ v, leg = some (.tx [v] .one) ∧ j = f v := by
  unfold expectTxByte at h
  split at h <;> cases h
  exact ⟨_, rfl, rfl⟩

theorem expectTx_ok {w : Lanes} {f : List Byte → Instr} {j : Instr} {leg : Option DataLeg}
    (h : expectTx w f leg = .ok j) : ∃ data, leg = some (.tx data w) ∧ j = f data := by
  unfold expectTx at h
  split at h
  · split at h
    · next hw => cases h; exact ⟨_, by rw [hw], rfl⟩
    · cases h
  · cases h

theorem expectRx_ok {w : Lanes} {f : Nat → Instr} {j : Instr} {leg : Option DataLeg}
    (h : expectRx w f leg = .ok j) : ∃ len, leg = some (.rx len w) ∧ j = f len := by
  unfold expectRx at h
  split at h
  · split at h
    · next hw => cases h; exact ⟨_, by rw [hw], rfl⟩
    · cases h
  · cases h

theorem expectRxOf_ok {n : Nat} {i j : Instr} {leg : Option DataLeg} (h : expectRxOf n i leg = .ok j) :
    leg = some (.rx n .one) ∧ j = i := by
  unfold expectRxOf at h
  split at h
  · split at h
    · next hn => cases h; exact ⟨by rw [hn], rfl⟩
    · cases h
  · cases h

/-- The row that a data leg completes has the command it was read from, with that leg. -/
theorem encode_of_withDataLeg {c : Cfg} {i j : Instr} {d : Descriptor} {leg : Option DataLeg}
    (hj : encode c j = some d) (h : withDataLeg j leg = .ok i) :
    ∃ leg', leg = some leg' ∧ encode c i = some (.ofRow d.commandBytes leg') := by
  cases j with
  | reset | writeEnable | writeDisable =>
    obtain ⟨rfl, rfl⟩ := expectNoLeg_ok h
    cases hj
    exact ⟨_, rfl, rfl⟩
  | writePage a | loadPage a | blockErase a =>
    obtain ⟨rfl, rfl⟩ := expectNoLeg_ok h
    obtain ⟨-, rfl⟩ := Descriptor.ofPageRow_eq_some_iff.1 hj
    exact ⟨_, rfl, hj⟩
  | readRegister reg | readId =>
    obtain ⟨rfl, rfl⟩ := expectRxOf_ok h
    cases hj
    exact ⟨_, rfl, rfl⟩
  | writeRegister reg value =>
    obtain ⟨v, rfl, rfl⟩ := expectTxByte_ok h
    cases hj
    exact ⟨_, rfl, rfl⟩
  | storeCacheX1 o buf | storeCacheX4 o buf =>
    obtain ⟨data, rfl, rfl⟩ := expectTx_ok h
    cases hj
    exact ⟨_, rfl, rfl⟩
  | readCacheX1 o len | readCacheX2 o len | readCacheX4 o len =>
    obtain ⟨len', rfl, rfl⟩ := expectRx_ok h
    cases hj
    exact ⟨_, rfl, rfl⟩
  | decodeStatusA raw | decodeStatusB raw | identify => cases h

/-- What the inverse map accepts is a command it reads, with a data leg that completes the row. -/
theorem decode_ok {c : Cfg} {d : Descriptor} {i : Instr} (h : decode c d = .ok i) :
    ∃ j, decodeCommand c d.commandBytes.toList = .ok j ∧ withDataLeg j d.dataLeg? = .ok i := by
  unfold decode at h
  split at h
  · cases h
  · next j hj => exact ⟨j, hj, h⟩

/-- Settles O22: the command bytes are those of the row read, and the data leg is the row's. -/
theorem decodedDescriptorIsTheRowsOwn : Obligations.DecodedDescriptorIsTheRowsOwn := by
  intro c d i h
  obtain ⟨j, hj, hleg⟩ := decode_ok h
  obtain ⟨-, d', hd', hl⟩ := encode_of_decodeCommand hj
  rw [← CommandBytes.toList_injective hl]
  exact encode_of_withDataLeg hd' hleg

/-! ## The length of a command -/

/-- Settles O23: the same first byte means the same entry, whose reader fixes the length. -/
theorem firstByteTellsTheCommandLength : Obligations.FirstByteTellsTheCommandLength := by
  intro c i j di dj hw hi hj hhead
  obtain ⟨r, hr, rest, hl, hread⟩ := encode_reads hi
  obtain ⟨r', hr', rest', hl', hread'⟩ := encode_reads hj
  rw [hl, hl', List.head?_cons, List.head?_cons, Option.some.injEq] at hhead
  obtain rfl := commandRow_eq_of_opcode hw hr hr' hhead
  obtain ⟨n, hn⟩ := commandRows_readsRows c r hr
  obtain ⟨hlen, hlow, hhigh⟩ := encode_length i c di hi
  refine ⟨?_, hlen ▸ hlow, hlen ▸ hhigh⟩
  rw [hl, hl', List.length_cons, List.length_cons, (hn _ _ hread).1, (hn _ _ hread').1]

/-! ## Table words -/

/-- Settles O24: the words are read at the default opcodes. -/
theorem sampleCommandWordsDecode : Obligations.SampleCommandWordsDecode :=
  ⟨by decide, by decide, by decide, by decide, by decide, by decide, by decide, by decide, by decide⟩

/-- A table word decodes through the command bytes it stands for. -/
theorem decodeTableWord_some {nbits w : Nat} {i : Instr} (h : decodeTableWord nbits w = some i) :
    ∃ l, decodeCommand Cfg.default l = .ok i := by
  unfold decodeTableWord at h
  split at h
  · split at h
    · next j hj => cases h; exact ⟨_, hj⟩
    · cases h
  · cases h

/-- The row of a command alone fits the ports of every well-formed configuration: its address has 24 bits, and
it has no payload. -/
theorem wf_of_commandOf {c : Cfg} {i : Instr} (hw : c.wf = true) (he : i.encodable = true)
    (hc : commandOf i = i) : i.wf c = true := by
  have hlen : 0 < 2 ^ c.lenW := Nat.two_pow_pos _
  cases i with
  | writePage a | loadPage a | blockErase a =>
    exact decide_eq_true ((of_decide_eq_true he).trans_le
      (Nat.pow_le_pow_right Nat.two_pos (Cfg.addrInW_of_wf hw)))
  | storeCacheX1 o buf | storeCacheX4 o buf | readCacheX1 o len | readCacheX2 o len | readCacheX4 o len =>
    cases hc
    exact decide_eq_true hlen
  | _ => rfl

/-- Settles O16: a table word decodes to the row of a command alone, whose request decodes back to it. -/
theorem fetchWordRunsTheTableWord : Obligations.FetchWordRunsTheTableWord := by
  intro s nbits w i h hw
  obtain ⟨l, hl⟩ := decodeTableWord_some h
  obtain ⟨hc, d, hd, -⟩ := encode_of_decodeCommand hl
  have he : i.encodable = true := encodable_iff.2 ⟨d, hd⟩
  have hop : (opOfRow i).wf s.cfg = true := (wf_opOfRow s.cfg i).trans (wf_of_commandOf hw he hc)
  have hp : (s.withFetchWord nbits w).pending = .request (Machine.requestFor i) :: s.pending := by
    rw [Machine.State.withFetchWord, Machine.requestForWord, h]
  rw [Machine.step_of_decodeReq_ok (s := s.withFetchWord nbits w) hw hp (decodeReq_encodeReq hop)]
  exact congrArg₂ Machine.exec (selectRow_opOfRow he _) rfl

end Sys2Proof
end
